-- ==== Sys2Proof/Word.lean ====
section
/-! DEFINITION. The two word types of the core: bytes and 16-bit addresses (R9, R10). -/

namespace Sys2Proof

/-- A byte: the width of A, X, Y, SP, P, IR and of a memory cell (R9, R10). -/
abbrev Byte := BitVec 8

/-- A 16-bit word: the width of PC and of an address (R9, R10). -/
abbrev Word := BitVec 16

end Sys2Proof
end

