-- ==== Sys2Proof/Config.lean ====
section
/-! DEFINITION. The fixed parameters of this hardware (R9) and the one value every unlisted memory cell reads as. -/

namespace Sys2Proof.Config

/-- Bytes of physical RAM (R9, R55). -/
def ramSize : Nat := 0x0800

/-- Last address of the RAM window (R51). -/
def ramLast : Nat := 0x1FFF

/-- Last address below the PRG-ROM window: 0x2000 to here reads 0 and ignores writes (R51, R56, R57). -/
def inertLast : Nat := 0x7FFF

/-- First address of the PRG-ROM window (R51). -/
def prgBase : Nat := 0x8000

/-- Length of one 16 KiB PRG bank, the length whose image is mirrored (R54). -/
def prgBank : Nat := 0x4000

/-- Length of one 8 KiB CHR page (R71). -/
def chrPage : Nat := 0x2000

/-- Base of the stack page (R24, R64). -/
def stackPage : Word := 0x0100

/-- Address of the reset vector's low byte (R9, R64). -/
def resetVector : Word := 0xFFFC

/-- SP after reset (R9, R45). -/
def spReset : Byte := 0xFD

/-- P after reset: U and B set, every other flag clear (R45, R270). -/
def pReset : Byte := 0x30

/-- What a cell that is not listed holds, in RAM and in a ROM image alike.
The spec leaves the power-on RAM to the launch parameter ram0 (D7).
DESIGN CHOICE, unsafe (log entry 2): a RAM byte nothing has listed reads 0x00. A launch with another ram0 lists it. -/
def unlistedByte : Byte := 0x00

/-- Bytes in the longest instruction (R90). -/
def longestInstr : Nat := 3

end Sys2Proof.Config
end

