-- ==== Sys2Proof/Syntax.lean ====
section
/-! DEFINITION. Instructions as syntax: addressing modes, operands, the 56 mnemonics and one constructor of Instr per
row of spec/opcode_table.json (R90, R92, R96, R108, R109). -/

namespace Sys2Proof

/-- The eleven descriptor modes of R96, and Relative, the branches' operand form, which is no descriptor mode (R105, C6). -/
inductive Mode where
  | immediate | zeroPage | zeroPageX | zeroPageY
  | absolute | absoluteX | absoluteY
  | indirectX | indirectY | indirect
  | noneAddressing
  | relative
  deriving DecidableEq, Repr

/-- Bytes of an instruction of this mode, its opcode byte included (R90, R95). -/
def Mode.length : Mode → Nat
  | .noneAddressing => 1
  | .immediate | .zeroPage | .zeroPageX | .zeroPageY | .indirectX | .indirectY | .relative => 2
  | .absolute | .absoluteX | .absoluteY | .indirect => 3

/-- An operand: an addressing mode with the operand bytes it carries, the word of the three-byte forms assembled
little-endian (R90, R112). The mode's assembler form stands beside it (R113). -/
inductive Operand where
  | none                       -- implied, or A
  | immediate (imm : Byte)     -- #$ii
  | zeroPage (zp : Byte)       -- $zz
  | zeroPageX (zp : Byte)      -- $zz,X
  | zeroPageY (zp : Byte)      -- $zz,Y
  | absolute (addr : Word)     -- $hhll
  | absoluteX (addr : Word)    -- $hhll,X
  | absoluteY (addr : Word)    -- $hhll,Y
  | indirectX (zp : Byte)      -- ($zz,X)
  | indirectY (zp : Byte)      -- ($zz),Y
  | indirect (ptr : Word)      -- ($hhll)
  | relative (off : Byte)      -- a branch's offset byte
  deriving DecidableEq, Repr

/-- The mode of an operand (R96). -/
def Operand.mode : Operand → Mode
  | .none => .noneAddressing
  | .immediate _ => .immediate
  | .zeroPage _ => .zeroPage
  | .zeroPageX _ => .zeroPageX
  | .zeroPageY _ => .zeroPageY
  | .absolute _ => .absolute
  | .absoluteX _ => .absoluteX
  | .absoluteY _ => .absoluteY
  | .indirectX _ => .indirectX
  | .indirectY _ => .indirectY
  | .indirect _ => .indirect
  | .relative _ => .relative

/-- Operand bytes that follow the opcode byte: what R93 adds to PC after an instruction that does not set it. -/
def Operand.size (o : Operand) : Nat := o.mode.length - 1

/-- The 56 mnemonics, each with the rule that gives its meaning in R109. -/
inductive Mnemonic where
  | adc | sbc
  | asl | lsr | rol | ror
  | cmp | cpx | cpy | inc | dec | inx | iny | dex | dey
  | and | ora | eor | bit | lda | ldx | ldy | sta | stx | sty
  | tax | tay | txa | tya | tsx | txs | pha | php | pla | plp
  | jmp | jsr | rts | rti | bcc | bcs | beq | bne | bmi | bpl | bvc | bvs | brk
  | clc | sec | cli | sei | cld | sed | clv | nop
  deriving DecidableEq, Repr

/-- The instructions: one constructor per row of spec/opcode_table.json (R92, R108).
A field is the row's operand: a byte, or the little-endian word of bytes 1 and 2 (R90, R112). -/
inductive Instr where
  -- add and subtract, 40_add_subtract.md
  | adcImm (imm : Byte)
  | adcZp (zp : Byte)
  | adcZpX (zp : Byte)
  | adcAbs (addr : Word)
  | adcAbsX (addr : Word)
  | adcAbsY (addr : Word)
  | adcIndX (zp : Byte)
  | adcIndY (zp : Byte)
  | sbcImm (imm : Byte)
  | sbcZp (zp : Byte)
  | sbcZpX (zp : Byte)
  | sbcAbs (addr : Word)
  | sbcAbsX (addr : Word)
  | sbcAbsY (addr : Word)
  | sbcIndX (zp : Byte)
  | sbcIndY (zp : Byte)
  -- shifts and rotates, 41_shift_rotate.md
  | aslA
  | aslZp (zp : Byte)
  | aslZpX (zp : Byte)
  | aslAbs (addr : Word)
  | aslAbsX (addr : Word)
  | lsrA
  | lsrZp (zp : Byte)
  | lsrZpX (zp : Byte)
  | lsrAbs (addr : Word)
  | lsrAbsX (addr : Word)
  | rolA
  | rolZp (zp : Byte)
  | rolZpX (zp : Byte)
  | rolAbs (addr : Word)
  | rolAbsX (addr : Word)
  | rorA
  | rorZp (zp : Byte)
  | rorZpX (zp : Byte)
  | rorAbs (addr : Word)
  | rorAbsX (addr : Word)
  -- compare, increment and decrement, 42_compare_incdec.md
  | cmpImm (imm : Byte)
  | cmpZp (zp : Byte)
  | cmpZpX (zp : Byte)
  | cmpAbs (addr : Word)
  | cmpAbsX (addr : Word)
  | cmpAbsY (addr : Word)
  | cmpIndX (zp : Byte)
  | cmpIndY (zp : Byte)
  | cpxImm (imm : Byte)
  | cpxZp (zp : Byte)
  | cpxAbs (addr : Word)
  | cpyImm (imm : Byte)
  | cpyZp (zp : Byte)
  | cpyAbs (addr : Word)
  | incZp (zp : Byte)
  | incZpX (zp : Byte)
  | incAbs (addr : Word)
  | incAbsX (addr : Word)
  | decZp (zp : Byte)
  | decZpX (zp : Byte)
  | decAbs (addr : Word)
  | decAbsX (addr : Word)
  | inx
  | iny
  | dex
  | dey
  -- logic, loads and stores, 43_logic_load_store.md
  | andImm (imm : Byte)
  | andZp (zp : Byte)
  | andZpX (zp : Byte)
  | andAbs (addr : Word)
  | andAbsX (addr : Word)
  | andAbsY (addr : Word)
  | andIndX (zp : Byte)
  | andIndY (zp : Byte)
  | oraImm (imm : Byte)
  | oraZp (zp : Byte)
  | oraZpX (zp : Byte)
  | oraAbs (addr : Word)
  | oraAbsX (addr : Word)
  | oraAbsY (addr : Word)
  | oraIndX (zp : Byte)
  | oraIndY (zp : Byte)
  | eorImm (imm : Byte)
  | eorZp (zp : Byte)
  | eorZpX (zp : Byte)
  | eorAbs (addr : Word)
  | eorAbsX (addr : Word)
  | eorAbsY (addr : Word)
  | eorIndX (zp : Byte)
  | eorIndY (zp : Byte)
  | bitZp (zp : Byte)
  | bitAbs (addr : Word)
  | ldaImm (imm : Byte)
  | ldaZp (zp : Byte)
  | ldaZpX (zp : Byte)
  | ldaAbs (addr : Word)
  | ldaAbsX (addr : Word)
  | ldaAbsY (addr : Word)
  | ldaIndX (zp : Byte)
  | ldaIndY (zp : Byte)
  | ldxImm (imm : Byte)
  | ldxZp (zp : Byte)
  | ldxZpY (zp : Byte)
  | ldxAbs (addr : Word)
  | ldxAbsY (addr : Word)
  | ldyImm (imm : Byte)
  | ldyZp (zp : Byte)
  | ldyZpX (zp : Byte)
  | ldyAbs (addr : Word)
  | ldyAbsX (addr : Word)
  | staZp (zp : Byte)
  | staZpX (zp : Byte)
  | staAbs (addr : Word)
  | staAbsX (addr : Word)
  | staAbsY (addr : Word)
  | staIndX (zp : Byte)
  | staIndY (zp : Byte)
  | stxZp (zp : Byte)
  | stxZpY (zp : Byte)
  | stxAbs (addr : Word)
  | styZp (zp : Byte)
  | styZpX (zp : Byte)
  | styAbs (addr : Word)
  -- transfers and stack, 44_transfer_stack.md
  | tax
  | tay
  | txa
  | tya
  | tsx
  | txs
  | pha
  | php
  | pla
  | plp
  -- control transfer, 45_control.md
  | jmpAbs (addr : Word)
  | jmpInd (ptr : Word)
  | jsr (addr : Word)
  | rts
  | rti
  | bcc (off : Byte)
  | bcs (off : Byte)
  | beq (off : Byte)
  | bne (off : Byte)
  | bmi (off : Byte)
  | bpl (off : Byte)
  | bvc (off : Byte)
  | bvs (off : Byte)
  | brk
  -- flags and NOP, 46_flag_nop.md
  | clc
  | sec
  | cli
  | sei
  | cld
  | sed
  | clv
  | nop
  deriving DecidableEq, Repr

/-- The mnemonic of an instruction (the "mnemonic" of its table row, R109). -/
def Instr.mnemonic : Instr → Mnemonic
  | .adcImm _ | .adcZp _ | .adcZpX _ | .adcAbs _ | .adcAbsX _ | .adcAbsY _ | .adcIndX _ | .adcIndY _ => .adc
  | .sbcImm _ | .sbcZp _ | .sbcZpX _ | .sbcAbs _ | .sbcAbsX _ | .sbcAbsY _ | .sbcIndX _ | .sbcIndY _ => .sbc
  | .aslA | .aslZp _ | .aslZpX _ | .aslAbs _ | .aslAbsX _ => .asl
  | .lsrA | .lsrZp _ | .lsrZpX _ | .lsrAbs _ | .lsrAbsX _ => .lsr
  | .rolA | .rolZp _ | .rolZpX _ | .rolAbs _ | .rolAbsX _ => .rol
  | .rorA | .rorZp _ | .rorZpX _ | .rorAbs _ | .rorAbsX _ => .ror
  | .cmpImm _ | .cmpZp _ | .cmpZpX _ | .cmpAbs _ | .cmpAbsX _ | .cmpAbsY _ | .cmpIndX _ | .cmpIndY _ => .cmp
  | .cpxImm _ | .cpxZp _ | .cpxAbs _ => .cpx
  | .cpyImm _ | .cpyZp _ | .cpyAbs _ => .cpy
  | .incZp _ | .incZpX _ | .incAbs _ | .incAbsX _ => .inc
  | .decZp _ | .decZpX _ | .decAbs _ | .decAbsX _ => .dec
  | .inx => .inx
  | .iny => .iny
  | .dex => .dex
  | .dey => .dey
  | .andImm _ | .andZp _ | .andZpX _ | .andAbs _ | .andAbsX _ | .andAbsY _ | .andIndX _ | .andIndY _ => .and
  | .oraImm _ | .oraZp _ | .oraZpX _ | .oraAbs _ | .oraAbsX _ | .oraAbsY _ | .oraIndX _ | .oraIndY _ => .ora
  | .eorImm _ | .eorZp _ | .eorZpX _ | .eorAbs _ | .eorAbsX _ | .eorAbsY _ | .eorIndX _ | .eorIndY _ => .eor
  | .bitZp _ | .bitAbs _ => .bit
  | .ldaImm _ | .ldaZp _ | .ldaZpX _ | .ldaAbs _ | .ldaAbsX _ | .ldaAbsY _ | .ldaIndX _ | .ldaIndY _ => .lda
  | .ldxImm _ | .ldxZp _ | .ldxZpY _ | .ldxAbs _ | .ldxAbsY _ => .ldx
  | .ldyImm _ | .ldyZp _ | .ldyZpX _ | .ldyAbs _ | .ldyAbsX _ => .ldy
  | .staZp _ | .staZpX _ | .staAbs _ | .staAbsX _ | .staAbsY _ | .staIndX _ | .staIndY _ => .sta
  | .stxZp _ | .stxZpY _ | .stxAbs _ => .stx
  | .styZp _ | .styZpX _ | .styAbs _ => .sty
  | .tax => .tax
  | .tay => .tay
  | .txa => .txa
  | .tya => .tya
  | .tsx => .tsx
  | .txs => .txs
  | .pha => .pha
  | .php => .php
  | .pla => .pla
  | .plp => .plp
  | .jmpAbs _ | .jmpInd _ => .jmp
  | .jsr _ => .jsr
  | .rts => .rts
  | .rti => .rti
  | .bcc _ => .bcc
  | .bcs _ => .bcs
  | .beq _ => .beq
  | .bne _ => .bne
  | .bmi _ => .bmi
  | .bpl _ => .bpl
  | .bvc _ => .bvc
  | .bvs _ => .bvs
  | .brk => .brk
  | .clc => .clc
  | .sec => .sec
  | .cli => .cli
  | .sei => .sei
  | .cld => .cld
  | .sed => .sed
  | .clv => .clv
  | .nop => .nop

/-- The operand of an instruction: its row's addressing mode, with the bytes the instruction carries (R92, R108). -/
def Instr.operand : Instr → Operand
  | .adcImm imm => .immediate imm
  | .sbcImm imm => .immediate imm
  | .cmpImm imm => .immediate imm
  | .cpxImm imm => .immediate imm
  | .cpyImm imm => .immediate imm
  | .andImm imm => .immediate imm
  | .oraImm imm => .immediate imm
  | .eorImm imm => .immediate imm
  | .ldaImm imm => .immediate imm
  | .ldxImm imm => .immediate imm
  | .ldyImm imm => .immediate imm
  | .adcZp zp => .zeroPage zp
  | .sbcZp zp => .zeroPage zp
  | .aslZp zp => .zeroPage zp
  | .lsrZp zp => .zeroPage zp
  | .rolZp zp => .zeroPage zp
  | .rorZp zp => .zeroPage zp
  | .cmpZp zp => .zeroPage zp
  | .cpxZp zp => .zeroPage zp
  | .cpyZp zp => .zeroPage zp
  | .incZp zp => .zeroPage zp
  | .decZp zp => .zeroPage zp
  | .andZp zp => .zeroPage zp
  | .oraZp zp => .zeroPage zp
  | .eorZp zp => .zeroPage zp
  | .bitZp zp => .zeroPage zp
  | .ldaZp zp => .zeroPage zp
  | .ldxZp zp => .zeroPage zp
  | .ldyZp zp => .zeroPage zp
  | .staZp zp => .zeroPage zp
  | .stxZp zp => .zeroPage zp
  | .styZp zp => .zeroPage zp
  | .adcZpX zp => .zeroPageX zp
  | .sbcZpX zp => .zeroPageX zp
  | .aslZpX zp => .zeroPageX zp
  | .lsrZpX zp => .zeroPageX zp
  | .rolZpX zp => .zeroPageX zp
  | .rorZpX zp => .zeroPageX zp
  | .cmpZpX zp => .zeroPageX zp
  | .incZpX zp => .zeroPageX zp
  | .decZpX zp => .zeroPageX zp
  | .andZpX zp => .zeroPageX zp
  | .oraZpX zp => .zeroPageX zp
  | .eorZpX zp => .zeroPageX zp
  | .ldaZpX zp => .zeroPageX zp
  | .ldyZpX zp => .zeroPageX zp
  | .staZpX zp => .zeroPageX zp
  | .styZpX zp => .zeroPageX zp
  | .ldxZpY zp => .zeroPageY zp
  | .stxZpY zp => .zeroPageY zp
  | .adcAbs addr => .absolute addr
  | .sbcAbs addr => .absolute addr
  | .aslAbs addr => .absolute addr
  | .lsrAbs addr => .absolute addr
  | .rolAbs addr => .absolute addr
  | .rorAbs addr => .absolute addr
  | .cmpAbs addr => .absolute addr
  | .cpxAbs addr => .absolute addr
  | .cpyAbs addr => .absolute addr
  | .incAbs addr => .absolute addr
  | .decAbs addr => .absolute addr
  | .andAbs addr => .absolute addr
  | .oraAbs addr => .absolute addr
  | .eorAbs addr => .absolute addr
  | .bitAbs addr => .absolute addr
  | .ldaAbs addr => .absolute addr
  | .ldxAbs addr => .absolute addr
  | .ldyAbs addr => .absolute addr
  | .staAbs addr => .absolute addr
  | .stxAbs addr => .absolute addr
  | .styAbs addr => .absolute addr
  | .jmpAbs addr => .absolute addr
  | .jsr addr => .absolute addr
  | .adcAbsX addr => .absoluteX addr
  | .sbcAbsX addr => .absoluteX addr
  | .aslAbsX addr => .absoluteX addr
  | .lsrAbsX addr => .absoluteX addr
  | .rolAbsX addr => .absoluteX addr
  | .rorAbsX addr => .absoluteX addr
  | .cmpAbsX addr => .absoluteX addr
  | .incAbsX addr => .absoluteX addr
  | .decAbsX addr => .absoluteX addr
  | .andAbsX addr => .absoluteX addr
  | .oraAbsX addr => .absoluteX addr
  | .eorAbsX addr => .absoluteX addr
  | .ldaAbsX addr => .absoluteX addr
  | .ldyAbsX addr => .absoluteX addr
  | .staAbsX addr => .absoluteX addr
  | .adcAbsY addr => .absoluteY addr
  | .sbcAbsY addr => .absoluteY addr
  | .cmpAbsY addr => .absoluteY addr
  | .andAbsY addr => .absoluteY addr
  | .oraAbsY addr => .absoluteY addr
  | .eorAbsY addr => .absoluteY addr
  | .ldaAbsY addr => .absoluteY addr
  | .ldxAbsY addr => .absoluteY addr
  | .staAbsY addr => .absoluteY addr
  | .adcIndX zp => .indirectX zp
  | .sbcIndX zp => .indirectX zp
  | .cmpIndX zp => .indirectX zp
  | .andIndX zp => .indirectX zp
  | .oraIndX zp => .indirectX zp
  | .eorIndX zp => .indirectX zp
  | .ldaIndX zp => .indirectX zp
  | .staIndX zp => .indirectX zp
  | .adcIndY zp => .indirectY zp
  | .sbcIndY zp => .indirectY zp
  | .cmpIndY zp => .indirectY zp
  | .andIndY zp => .indirectY zp
  | .oraIndY zp => .indirectY zp
  | .eorIndY zp => .indirectY zp
  | .ldaIndY zp => .indirectY zp
  | .staIndY zp => .indirectY zp
  | .jmpInd ptr => .indirect ptr
  | .bcc off => .relative off
  | .bcs off => .relative off
  | .beq off => .relative off
  | .bne off => .relative off
  | .bmi off => .relative off
  | .bpl off => .relative off
  | .bvc off => .relative off
  | .bvs off => .relative off
  | .aslA | .lsrA | .rolA | .rorA | .inx | .iny | .dex | .dey | .tax | .tay
  | .txa | .tya | .tsx | .txs | .pha | .php | .pla | .plp | .rts | .rti
  | .brk | .clc | .sec | .cli | .sei | .cld | .sed | .clv | .nop => .none

/-- The addressing mode of an instruction's descriptor (R92). -/
def Instr.mode (i : Instr) : Mode := i.operand.mode

/-- The length of an instruction in bytes, 1 to 3 (R90, R95). -/
def Instr.length (i : Instr) : Nat := i.mode.length

end Sys2Proof
end

