-- ==== Sys2Proof/WellFormed.lean ====
section
/-! DEFINITION. Which addressing modes each mnemonic has (R108), and the well-formedness of an instruction. -/

namespace Sys2Proof

/-- The modes a mnemonic is defined in: the columns of the opcode map of R108 read per mnemonic.
There is no store in Immediate mode, LDX and STX index by Y, BIT has two memory modes only. -/
def Mnemonic.modes : Mnemonic → List Mode
  | .adc | .sbc | .cmp | .and | .ora | .eor | .lda =>
      [.immediate, .zeroPage, .zeroPageX, .absolute, .absoluteX, .absoluteY, .indirectX, .indirectY]
  | .asl | .lsr | .rol | .ror =>
      [.zeroPage, .zeroPageX, .absolute, .absoluteX, .noneAddressing]
  | .cpx | .cpy =>
      [.immediate, .zeroPage, .absolute]
  | .inc | .dec =>
      [.zeroPage, .zeroPageX, .absolute, .absoluteX]
  | .inx | .iny | .dex | .dey | .tax | .tay | .txa | .tya | .tsx | .txs
  | .pha | .php | .pla | .plp | .rts | .rti | .brk | .clc | .sec | .cli
  | .sei | .cld | .sed | .clv | .nop =>
      [.noneAddressing]
  | .bit =>
      [.zeroPage, .absolute]
  | .ldx =>
      [.immediate, .zeroPage, .zeroPageY, .absolute, .absoluteY]
  | .ldy =>
      [.immediate, .zeroPage, .zeroPageX, .absolute, .absoluteX]
  | .sta =>
      [.zeroPage, .zeroPageX, .absolute, .absoluteX, .absoluteY, .indirectX, .indirectY]
  | .stx =>
      [.zeroPage, .zeroPageY, .absolute]
  | .sty =>
      [.zeroPage, .zeroPageX, .absolute]
  | .jmp =>
      [.absolute, .indirect]
  | .jsr =>
      [.absolute]
  | .bcc | .bcs | .beq | .bne | .bmi | .bpl | .bvc | .bvs =>
      [.relative]

/-- The check: the opcode map defines this mnemonic in the mode of this operand. A pair that fails has no encoding. -/
def wellFormedPair (m : Mnemonic) (o : Operand) : Bool := decide (o.mode ∈ m.modes)

/-- An instruction is well-formed when its mnemonic is defined in its operand's mode.
Every operand field has exactly the width its encoding gives it, so no value of a field is ill-formed, and every
constructor is a row of the table; the check refuses pairs that are no row (wellFormedPair). -/
def Instr.wellFormed (i : Instr) : Bool := wellFormedPair i.mnemonic i.operand

end Sys2Proof
end

