-- ==== Sys2Proof/Decode.lean ====
section
/-! DEFINITION. The descriptor table of R92, the decoder and the encoder (R90, R92, R95, R108, R110, R112). -/

namespace Sys2Proof

/-- The 16-bit word of two bytes, high byte first in the argument order: the spec's concatenation of R11. -/
def mkWord (hi lo : Byte) : Word := BitVec.ofNat 16 (hi.toNat * 256 + lo.toNat)

/-- Bits 7:0 of a word (R10). -/
def loByte (w : Word) : Byte := w.extractLsb' 0 8

/-- Bits 15:8 of a word (R10). -/
def hiByte (w : Word) : Byte := w.extractLsb' 8 8

/-- How an instruction is built from the bytes after its opcode byte: from none, from one byte, or from the
little-endian word of two (R90, R112). -/
inductive Template where
  | implied (i : Instr)
  | byte (build : Byte → Instr)
  | word (build : Word → Instr)

/-- The extra-cycle note of a row, informative (R285). -/
inductive ExtraCycles where
  | none        -- no extra cycle
  | pageCross   -- one more when the effective address is in another page than the base
  | branch      -- one more when taken, one more again when the target is in another page than the next instruction
  deriving DecidableEq, Repr

/-- A descriptor: opcode byte, mnemonic, mode, cycle counts (informative, R285), and how its instruction is built. -/
structure Row where
  opcode : Byte
  mnemonic : Mnemonic
  mode : Mode
  baseCycles : Nat
  extraCycles : ExtraCycles
  template : Template

/-- The length of a descriptor's instruction (R92, R95). -/
def Row.length (r : Row) : Nat := r.mode.length

/-- Row 0x of the opcode map (R108). -/
def opcodes0x : List Row :=
  [ ⟨0x00, .brk, .noneAddressing, 7, .none, .implied .brk⟩,
    ⟨0x01, .ora, .indirectX, 6, .none, .byte .oraIndX⟩,
    ⟨0x05, .ora, .zeroPage, 3, .none, .byte .oraZp⟩,
    ⟨0x06, .asl, .zeroPage, 5, .none, .byte .aslZp⟩,
    ⟨0x08, .php, .noneAddressing, 3, .none, .implied .php⟩,
    ⟨0x09, .ora, .immediate, 2, .none, .byte .oraImm⟩,
    ⟨0x0A, .asl, .noneAddressing, 2, .none, .implied .aslA⟩,
    ⟨0x0D, .ora, .absolute, 4, .none, .word .oraAbs⟩,
    ⟨0x0E, .asl, .absolute, 6, .none, .word .aslAbs⟩ ]

/-- Row 1x of the opcode map (R108). -/
def opcodes1x : List Row :=
  [ ⟨0x10, .bpl, .relative, 2, .branch, .byte .bpl⟩,
    ⟨0x11, .ora, .indirectY, 5, .pageCross, .byte .oraIndY⟩,
    ⟨0x15, .ora, .zeroPageX, 4, .none, .byte .oraZpX⟩,
    ⟨0x16, .asl, .zeroPageX, 6, .none, .byte .aslZpX⟩,
    ⟨0x18, .clc, .noneAddressing, 2, .none, .implied .clc⟩,
    ⟨0x19, .ora, .absoluteY, 4, .pageCross, .word .oraAbsY⟩,
    ⟨0x1D, .ora, .absoluteX, 4, .pageCross, .word .oraAbsX⟩,
    ⟨0x1E, .asl, .absoluteX, 7, .none, .word .aslAbsX⟩ ]

/-- Row 2x of the opcode map (R108). -/
def opcodes2x : List Row :=
  [ ⟨0x20, .jsr, .absolute, 6, .none, .word .jsr⟩,
    ⟨0x21, .and, .indirectX, 6, .none, .byte .andIndX⟩,
    ⟨0x24, .bit, .zeroPage, 3, .none, .byte .bitZp⟩,
    ⟨0x25, .and, .zeroPage, 3, .none, .byte .andZp⟩,
    ⟨0x26, .rol, .zeroPage, 5, .none, .byte .rolZp⟩,
    ⟨0x28, .plp, .noneAddressing, 4, .none, .implied .plp⟩,
    ⟨0x29, .and, .immediate, 2, .none, .byte .andImm⟩,
    ⟨0x2A, .rol, .noneAddressing, 2, .none, .implied .rolA⟩,
    ⟨0x2C, .bit, .absolute, 4, .none, .word .bitAbs⟩,
    ⟨0x2D, .and, .absolute, 4, .none, .word .andAbs⟩,
    ⟨0x2E, .rol, .absolute, 6, .none, .word .rolAbs⟩ ]

/-- Row 3x of the opcode map (R108). -/
def opcodes3x : List Row :=
  [ ⟨0x30, .bmi, .relative, 2, .branch, .byte .bmi⟩,
    ⟨0x31, .and, .indirectY, 5, .pageCross, .byte .andIndY⟩,
    ⟨0x35, .and, .zeroPageX, 4, .none, .byte .andZpX⟩,
    ⟨0x36, .rol, .zeroPageX, 6, .none, .byte .rolZpX⟩,
    ⟨0x38, .sec, .noneAddressing, 2, .none, .implied .sec⟩,
    ⟨0x39, .and, .absoluteY, 4, .pageCross, .word .andAbsY⟩,
    ⟨0x3D, .and, .absoluteX, 4, .pageCross, .word .andAbsX⟩,
    ⟨0x3E, .rol, .absoluteX, 7, .none, .word .rolAbsX⟩ ]

/-- Row 4x of the opcode map (R108). -/
def opcodes4x : List Row :=
  [ ⟨0x40, .rti, .noneAddressing, 6, .none, .implied .rti⟩,
    ⟨0x41, .eor, .indirectX, 6, .none, .byte .eorIndX⟩,
    ⟨0x45, .eor, .zeroPage, 3, .none, .byte .eorZp⟩,
    ⟨0x46, .lsr, .zeroPage, 5, .none, .byte .lsrZp⟩,
    ⟨0x48, .pha, .noneAddressing, 3, .none, .implied .pha⟩,
    ⟨0x49, .eor, .immediate, 2, .none, .byte .eorImm⟩,
    ⟨0x4A, .lsr, .noneAddressing, 2, .none, .implied .lsrA⟩,
    ⟨0x4C, .jmp, .absolute, 3, .none, .word .jmpAbs⟩,
    ⟨0x4D, .eor, .absolute, 4, .none, .word .eorAbs⟩,
    ⟨0x4E, .lsr, .absolute, 6, .none, .word .lsrAbs⟩ ]

/-- Row 5x of the opcode map (R108). -/
def opcodes5x : List Row :=
  [ ⟨0x50, .bvc, .relative, 2, .branch, .byte .bvc⟩,
    ⟨0x51, .eor, .indirectY, 5, .pageCross, .byte .eorIndY⟩,
    ⟨0x55, .eor, .zeroPageX, 4, .none, .byte .eorZpX⟩,
    ⟨0x56, .lsr, .zeroPageX, 6, .none, .byte .lsrZpX⟩,
    ⟨0x58, .cli, .noneAddressing, 2, .none, .implied .cli⟩,
    ⟨0x59, .eor, .absoluteY, 4, .pageCross, .word .eorAbsY⟩,
    ⟨0x5D, .eor, .absoluteX, 4, .pageCross, .word .eorAbsX⟩,
    ⟨0x5E, .lsr, .absoluteX, 7, .none, .word .lsrAbsX⟩ ]

/-- Row 6x of the opcode map (R108). -/
def opcodes6x : List Row :=
  [ ⟨0x60, .rts, .noneAddressing, 6, .none, .implied .rts⟩,
    ⟨0x61, .adc, .indirectX, 6, .none, .byte .adcIndX⟩,
    ⟨0x65, .adc, .zeroPage, 3, .none, .byte .adcZp⟩,
    ⟨0x66, .ror, .zeroPage, 5, .none, .byte .rorZp⟩,
    ⟨0x68, .pla, .noneAddressing, 4, .none, .implied .pla⟩,
    ⟨0x69, .adc, .immediate, 2, .none, .byte .adcImm⟩,
    ⟨0x6A, .ror, .noneAddressing, 2, .none, .implied .rorA⟩,
    ⟨0x6C, .jmp, .indirect, 5, .none, .word .jmpInd⟩,
    ⟨0x6D, .adc, .absolute, 4, .none, .word .adcAbs⟩,
    ⟨0x6E, .ror, .absolute, 6, .none, .word .rorAbs⟩ ]

/-- Row 7x of the opcode map (R108). -/
def opcodes7x : List Row :=
  [ ⟨0x70, .bvs, .relative, 2, .branch, .byte .bvs⟩,
    ⟨0x71, .adc, .indirectY, 5, .pageCross, .byte .adcIndY⟩,
    ⟨0x75, .adc, .zeroPageX, 4, .none, .byte .adcZpX⟩,
    ⟨0x76, .ror, .zeroPageX, 6, .none, .byte .rorZpX⟩,
    ⟨0x78, .sei, .noneAddressing, 2, .none, .implied .sei⟩,
    ⟨0x79, .adc, .absoluteY, 4, .pageCross, .word .adcAbsY⟩,
    ⟨0x7D, .adc, .absoluteX, 4, .pageCross, .word .adcAbsX⟩,
    ⟨0x7E, .ror, .absoluteX, 7, .none, .word .rorAbsX⟩ ]

/-- Row 8x of the opcode map (R108). -/
def opcodes8x : List Row :=
  [ ⟨0x81, .sta, .indirectX, 6, .none, .byte .staIndX⟩,
    ⟨0x84, .sty, .zeroPage, 3, .none, .byte .styZp⟩,
    ⟨0x85, .sta, .zeroPage, 3, .none, .byte .staZp⟩,
    ⟨0x86, .stx, .zeroPage, 3, .none, .byte .stxZp⟩,
    ⟨0x88, .dey, .noneAddressing, 2, .none, .implied .dey⟩,
    ⟨0x8A, .txa, .noneAddressing, 2, .none, .implied .txa⟩,
    ⟨0x8C, .sty, .absolute, 4, .none, .word .styAbs⟩,
    ⟨0x8D, .sta, .absolute, 4, .none, .word .staAbs⟩,
    ⟨0x8E, .stx, .absolute, 4, .none, .word .stxAbs⟩ ]

/-- Row 9x of the opcode map (R108). -/
def opcodes9x : List Row :=
  [ ⟨0x90, .bcc, .relative, 2, .branch, .byte .bcc⟩,
    ⟨0x91, .sta, .indirectY, 6, .none, .byte .staIndY⟩,
    ⟨0x94, .sty, .zeroPageX, 4, .none, .byte .styZpX⟩,
    ⟨0x95, .sta, .zeroPageX, 4, .none, .byte .staZpX⟩,
    ⟨0x96, .stx, .zeroPageY, 4, .none, .byte .stxZpY⟩,
    ⟨0x98, .tya, .noneAddressing, 2, .none, .implied .tya⟩,
    ⟨0x99, .sta, .absoluteY, 5, .none, .word .staAbsY⟩,
    ⟨0x9A, .txs, .noneAddressing, 2, .none, .implied .txs⟩,
    ⟨0x9D, .sta, .absoluteX, 5, .none, .word .staAbsX⟩ ]

/-- Row Ax of the opcode map (R108). -/
def opcodesAx : List Row :=
  [ ⟨0xA0, .ldy, .immediate, 2, .none, .byte .ldyImm⟩,
    ⟨0xA1, .lda, .indirectX, 6, .none, .byte .ldaIndX⟩,
    ⟨0xA2, .ldx, .immediate, 2, .none, .byte .ldxImm⟩,
    ⟨0xA4, .ldy, .zeroPage, 3, .none, .byte .ldyZp⟩,
    ⟨0xA5, .lda, .zeroPage, 3, .none, .byte .ldaZp⟩,
    ⟨0xA6, .ldx, .zeroPage, 3, .none, .byte .ldxZp⟩,
    ⟨0xA8, .tay, .noneAddressing, 2, .none, .implied .tay⟩,
    ⟨0xA9, .lda, .immediate, 2, .none, .byte .ldaImm⟩,
    ⟨0xAA, .tax, .noneAddressing, 2, .none, .implied .tax⟩,
    ⟨0xAC, .ldy, .absolute, 4, .none, .word .ldyAbs⟩,
    ⟨0xAD, .lda, .absolute, 4, .none, .word .ldaAbs⟩,
    ⟨0xAE, .ldx, .absolute, 4, .none, .word .ldxAbs⟩ ]

/-- Row Bx of the opcode map (R108). -/
def opcodesBx : List Row :=
  [ ⟨0xB0, .bcs, .relative, 2, .branch, .byte .bcs⟩,
    ⟨0xB1, .lda, .indirectY, 5, .pageCross, .byte .ldaIndY⟩,
    ⟨0xB4, .ldy, .zeroPageX, 4, .none, .byte .ldyZpX⟩,
    ⟨0xB5, .lda, .zeroPageX, 4, .none, .byte .ldaZpX⟩,
    ⟨0xB6, .ldx, .zeroPageY, 4, .none, .byte .ldxZpY⟩,
    ⟨0xB8, .clv, .noneAddressing, 2, .none, .implied .clv⟩,
    ⟨0xB9, .lda, .absoluteY, 4, .pageCross, .word .ldaAbsY⟩,
    ⟨0xBA, .tsx, .noneAddressing, 2, .none, .implied .tsx⟩,
    ⟨0xBC, .ldy, .absoluteX, 4, .pageCross, .word .ldyAbsX⟩,
    ⟨0xBD, .lda, .absoluteX, 4, .pageCross, .word .ldaAbsX⟩,
    ⟨0xBE, .ldx, .absoluteY, 4, .pageCross, .word .ldxAbsY⟩ ]

/-- Row Cx of the opcode map (R108). -/
def opcodesCx : List Row :=
  [ ⟨0xC0, .cpy, .immediate, 2, .none, .byte .cpyImm⟩,
    ⟨0xC1, .cmp, .indirectX, 6, .none, .byte .cmpIndX⟩,
    ⟨0xC4, .cpy, .zeroPage, 3, .none, .byte .cpyZp⟩,
    ⟨0xC5, .cmp, .zeroPage, 3, .none, .byte .cmpZp⟩,
    ⟨0xC6, .dec, .zeroPage, 5, .none, .byte .decZp⟩,
    ⟨0xC8, .iny, .noneAddressing, 2, .none, .implied .iny⟩,
    ⟨0xC9, .cmp, .immediate, 2, .none, .byte .cmpImm⟩,
    ⟨0xCA, .dex, .noneAddressing, 2, .none, .implied .dex⟩,
    ⟨0xCC, .cpy, .absolute, 4, .none, .word .cpyAbs⟩,
    ⟨0xCD, .cmp, .absolute, 4, .none, .word .cmpAbs⟩,
    ⟨0xCE, .dec, .absolute, 6, .none, .word .decAbs⟩ ]

/-- Row Dx of the opcode map (R108). -/
def opcodesDx : List Row :=
  [ ⟨0xD0, .bne, .relative, 2, .branch, .byte .bne⟩,
    ⟨0xD1, .cmp, .indirectY, 5, .pageCross, .byte .cmpIndY⟩,
    ⟨0xD5, .cmp, .zeroPageX, 4, .none, .byte .cmpZpX⟩,
    ⟨0xD6, .dec, .zeroPageX, 6, .none, .byte .decZpX⟩,
    ⟨0xD8, .cld, .noneAddressing, 2, .none, .implied .cld⟩,
    ⟨0xD9, .cmp, .absoluteY, 4, .pageCross, .word .cmpAbsY⟩,
    ⟨0xDD, .cmp, .absoluteX, 4, .pageCross, .word .cmpAbsX⟩,
    ⟨0xDE, .dec, .absoluteX, 7, .none, .word .decAbsX⟩ ]

/-- Row Ex of the opcode map (R108). -/
def opcodesEx : List Row :=
  [ ⟨0xE0, .cpx, .immediate, 2, .none, .byte .cpxImm⟩,
    ⟨0xE1, .sbc, .indirectX, 6, .none, .byte .sbcIndX⟩,
    ⟨0xE4, .cpx, .zeroPage, 3, .none, .byte .cpxZp⟩,
    ⟨0xE5, .sbc, .zeroPage, 3, .none, .byte .sbcZp⟩,
    ⟨0xE6, .inc, .zeroPage, 5, .none, .byte .incZp⟩,
    ⟨0xE8, .inx, .noneAddressing, 2, .none, .implied .inx⟩,
    ⟨0xE9, .sbc, .immediate, 2, .none, .byte .sbcImm⟩,
    ⟨0xEA, .nop, .noneAddressing, 2, .none, .implied .nop⟩,
    ⟨0xEC, .cpx, .absolute, 4, .none, .word .cpxAbs⟩,
    ⟨0xED, .sbc, .absolute, 4, .none, .word .sbcAbs⟩,
    ⟨0xEE, .inc, .absolute, 6, .none, .word .incAbs⟩ ]

/-- Row Fx of the opcode map (R108). -/
def opcodesFx : List Row :=
  [ ⟨0xF0, .beq, .relative, 2, .branch, .byte .beq⟩,
    ⟨0xF1, .sbc, .indirectY, 5, .pageCross, .byte .sbcIndY⟩,
    ⟨0xF5, .sbc, .zeroPageX, 4, .none, .byte .sbcZpX⟩,
    ⟨0xF6, .inc, .zeroPageX, 6, .none, .byte .incZpX⟩,
    ⟨0xF8, .sed, .noneAddressing, 2, .none, .implied .sed⟩,
    ⟨0xF9, .sbc, .absoluteY, 4, .pageCross, .word .sbcAbsY⟩,
    ⟨0xFD, .sbc, .absoluteX, 4, .pageCross, .word .sbcAbsX⟩,
    ⟨0xFE, .inc, .absoluteX, 7, .none, .word .incAbsX⟩ ]

/-- The opcode map by high nibble: its sixteen rows (R108). -/
def opcodeMap : Nat → List Row
  | 0 => opcodes0x
  | 1 => opcodes1x
  | 2 => opcodes2x
  | 3 => opcodes3x
  | 4 => opcodes4x
  | 5 => opcodes5x
  | 6 => opcodes6x
  | 7 => opcodes7x
  | 8 => opcodes8x
  | 9 => opcodes9x
  | 10 => opcodesAx
  | 11 => opcodesBx
  | 12 => opcodesCx
  | 13 => opcodesDx
  | 14 => opcodesEx
  | 15 => opcodesFx
  | _ => []

/-- The descriptor table: the 151 rows of the opcode map, read-only (R33, R92, R108; spec/opcode_table.json). -/
def descriptors : List Row := [0, 1, 2, 3, 4, 5, 6, 7, 8, 9, 10, 11, 12, 13, 14, 15].flatMap opcodeMap

/-- The descriptor of an opcode byte, or none: its entry in the row of its high nibble (R92, R108). -/
def descriptor (op : Byte) : Option Row := (opcodeMap (op.toNat / 16)).find? fun r => r.opcode == op

/-- Why a byte sequence decodes to no instruction. -/
inductive DecodeError where
  | noBytes                      -- nothing to decode
  | illegalOpcode (op : Byte)    -- the opcode byte has no descriptor (R110)
  | truncated (op : Byte)        -- fewer bytes than the opcode's length
  deriving DecidableEq, Repr

/-- Build the instruction of an opcode from the bytes after it, and the bytes left over (R90, R95, R112). -/
def Template.read (op : Byte) : Template → List Byte → Except DecodeError (Instr × List Byte)
  | .implied i, rest => .ok (i, rest)
  | .byte f, b :: rest => .ok (f b, rest)
  | .word f, lo :: hi :: rest => .ok (f (mkWord hi lo), rest)
  | .byte _, [] | .word _, [] | .word _, [_] => .error (.truncated op)

/-- Decode the first instruction of a byte sequence; the opcode byte alone selects it (R90, R92). Total on any bytes. -/
def decode : List Byte → Except DecodeError (Instr × List Byte)
  | [] => .error .noBytes
  | op :: rest =>
    match descriptor op with
    | none => .error (.illegalOpcode op)
    | some r => r.template.read op rest

/-- The opcode byte of an instruction (the "opcode" of its table row, R108 and the Encoding lines of R120 to R237). -/
def Instr.opcode : Instr → Byte
  | .adcImm _ => 0x69
  | .adcZp _ => 0x65
  | .adcZpX _ => 0x75
  | .adcAbs _ => 0x6D
  | .adcAbsX _ => 0x7D
  | .adcAbsY _ => 0x79
  | .adcIndX _ => 0x61
  | .adcIndY _ => 0x71
  | .sbcImm _ => 0xE9
  | .sbcZp _ => 0xE5
  | .sbcZpX _ => 0xF5
  | .sbcAbs _ => 0xED
  | .sbcAbsX _ => 0xFD
  | .sbcAbsY _ => 0xF9
  | .sbcIndX _ => 0xE1
  | .sbcIndY _ => 0xF1
  | .aslA => 0x0A
  | .aslZp _ => 0x06
  | .aslZpX _ => 0x16
  | .aslAbs _ => 0x0E
  | .aslAbsX _ => 0x1E
  | .lsrA => 0x4A
  | .lsrZp _ => 0x46
  | .lsrZpX _ => 0x56
  | .lsrAbs _ => 0x4E
  | .lsrAbsX _ => 0x5E
  | .rolA => 0x2A
  | .rolZp _ => 0x26
  | .rolZpX _ => 0x36
  | .rolAbs _ => 0x2E
  | .rolAbsX _ => 0x3E
  | .rorA => 0x6A
  | .rorZp _ => 0x66
  | .rorZpX _ => 0x76
  | .rorAbs _ => 0x6E
  | .rorAbsX _ => 0x7E
  | .cmpImm _ => 0xC9
  | .cmpZp _ => 0xC5
  | .cmpZpX _ => 0xD5
  | .cmpAbs _ => 0xCD
  | .cmpAbsX _ => 0xDD
  | .cmpAbsY _ => 0xD9
  | .cmpIndX _ => 0xC1
  | .cmpIndY _ => 0xD1
  | .cpxImm _ => 0xE0
  | .cpxZp _ => 0xE4
  | .cpxAbs _ => 0xEC
  | .cpyImm _ => 0xC0
  | .cpyZp _ => 0xC4
  | .cpyAbs _ => 0xCC
  | .incZp _ => 0xE6
  | .incZpX _ => 0xF6
  | .incAbs _ => 0xEE
  | .incAbsX _ => 0xFE
  | .decZp _ => 0xC6
  | .decZpX _ => 0xD6
  | .decAbs _ => 0xCE
  | .decAbsX _ => 0xDE
  | .inx => 0xE8
  | .iny => 0xC8
  | .dex => 0xCA
  | .dey => 0x88
  | .andImm _ => 0x29
  | .andZp _ => 0x25
  | .andZpX _ => 0x35
  | .andAbs _ => 0x2D
  | .andAbsX _ => 0x3D
  | .andAbsY _ => 0x39
  | .andIndX _ => 0x21
  | .andIndY _ => 0x31
  | .oraImm _ => 0x09
  | .oraZp _ => 0x05
  | .oraZpX _ => 0x15
  | .oraAbs _ => 0x0D
  | .oraAbsX _ => 0x1D
  | .oraAbsY _ => 0x19
  | .oraIndX _ => 0x01
  | .oraIndY _ => 0x11
  | .eorImm _ => 0x49
  | .eorZp _ => 0x45
  | .eorZpX _ => 0x55
  | .eorAbs _ => 0x4D
  | .eorAbsX _ => 0x5D
  | .eorAbsY _ => 0x59
  | .eorIndX _ => 0x41
  | .eorIndY _ => 0x51
  | .bitZp _ => 0x24
  | .bitAbs _ => 0x2C
  | .ldaImm _ => 0xA9
  | .ldaZp _ => 0xA5
  | .ldaZpX _ => 0xB5
  | .ldaAbs _ => 0xAD
  | .ldaAbsX _ => 0xBD
  | .ldaAbsY _ => 0xB9
  | .ldaIndX _ => 0xA1
  | .ldaIndY _ => 0xB1
  | .ldxImm _ => 0xA2
  | .ldxZp _ => 0xA6
  | .ldxZpY _ => 0xB6
  | .ldxAbs _ => 0xAE
  | .ldxAbsY _ => 0xBE
  | .ldyImm _ => 0xA0
  | .ldyZp _ => 0xA4
  | .ldyZpX _ => 0xB4
  | .ldyAbs _ => 0xAC
  | .ldyAbsX _ => 0xBC
  | .staZp _ => 0x85
  | .staZpX _ => 0x95
  | .staAbs _ => 0x8D
  | .staAbsX _ => 0x9D
  | .staAbsY _ => 0x99
  | .staIndX _ => 0x81
  | .staIndY _ => 0x91
  | .stxZp _ => 0x86
  | .stxZpY _ => 0x96
  | .stxAbs _ => 0x8E
  | .styZp _ => 0x84
  | .styZpX _ => 0x94
  | .styAbs _ => 0x8C
  | .tax => 0xAA
  | .tay => 0xA8
  | .txa => 0x8A
  | .tya => 0x98
  | .tsx => 0xBA
  | .txs => 0x9A
  | .pha => 0x48
  | .php => 0x08
  | .pla => 0x68
  | .plp => 0x28
  | .jmpAbs _ => 0x4C
  | .jmpInd _ => 0x6C
  | .jsr _ => 0x20
  | .rts => 0x60
  | .rti => 0x40
  | .bcc _ => 0x90
  | .bcs _ => 0xB0
  | .beq _ => 0xF0
  | .bne _ => 0xD0
  | .bmi _ => 0x30
  | .bpl _ => 0x10
  | .bvc _ => 0x50
  | .bvs _ => 0x70
  | .brk => 0x00
  | .clc => 0x18
  | .sec => 0x38
  | .cli => 0x58
  | .sei => 0x78
  | .cld => 0xD8
  | .sed => 0xF8
  | .clv => 0xB8
  | .nop => 0xEA

/-- The operand bytes of an instruction in memory order: low byte first (R61, R90). -/
def Operand.bytes : Operand → List Byte
  | .none => []
  | .immediate b | .zeroPage b | .zeroPageX b | .zeroPageY b | .indirectX b | .indirectY b | .relative b => [b]
  | .absolute w | .absoluteX w | .absoluteY w | .indirect w => [loByte w, hiByte w]

/-- The words of an instruction: its opcode byte, then its operand bytes (R90). -/
def encode (i : Instr) : List Byte := i.opcode :: i.operand.bytes

/-- The three bytes of an instruction whose first nbits bits are those of w, bit 0 the least significant bit of the
first byte, every later bit 0. -/
def tableBytes (nbits w : Nat) : List Byte :=
  let v := w % 2 ^ nbits
  [BitVec.ofNat 8 v, BitVec.ofNat 8 (v / 256), BitVec.ofNat 8 (v / 65536)]

/-- What the decoder reads from a table word: the instruction, or none where it refuses. -/
def decodeTableWord (nbits w : Nat) : Option Instr :=
  match decode (tableBytes nbits w) with
  | .ok (i, _) => some i
  | .error _ => none

end Sys2Proof
end

