-- ==== Sys2Proof/Machine/State.lean ====
section
/-! DEFINITION. The state of the core and of its platform as plain data, the fault kinds, the refusals, and the
state right after reset (R20 to R33, R45, R52 to R58, R240). -/

namespace Sys2Proof.Machine

/-- The three fault kinds of R240. A fault is an outcome the spec describes whole (the record it leaves, the writes it
keeps, the steps it stops), so the machine TAKES it: the next state carries the record (log entry 6), and no step
answers Outcome.fault. A recorded fault is a bad end: safe, a claim of normal termination is refuted by it. -/
inductive Fault where
  /-- Raised by the decode of an opcode byte that has no descriptor (R241). Safe: the core stops where the spec stops. -/
  | illegalOpcode
  /-- Raised by a read of the PRG window past the image: opcode fetch, operand, pointer or data read, or the reset
  vector (R242). Safe: the core stops where the spec stops. -/
  | prgOutOfRange
  /-- Raised by JSR, before any push, when a push would write one of its own operand bytes (R243). Safe likewise. -/
  | stackOverlapsOperand
  deriving DecidableEq, Repr

/-- Why a question to the model gets no answer. No step from any state answers one of these. -/
inductive Refusal where
  /-- An instruction without a meaning: raised by an arm of exec, none at present. Safe. -/
  | notModelled (mnemonic : String)
  /-- The effective address of NoneAddressing, or of a branch's operand, was asked for (R106, U2, D27). Raised by
  withEA; no instruction asks. Safe. -/
  | noEffectiveAddress
  /-- A cartridge buffer shorter than its header declares (R75, U6, D26). Raised by the cartridge build. Safe. -/
  | truncatedCartridge
  deriving DecidableEq, Repr

/-- The fault record of R32 and R240. -/
structure FaultRecord where
  kind : Fault
  /-- Address of the faulting instruction's opcode, or 0xFFFC for a fault during reset. -/
  pc : Word
  /-- IR at the fault. -/
  ir : Byte
  /-- Address of the access that faulted; the opcode's address for illegalOpcode. -/
  addr : Word
  deriving DecidableEq, Repr

/-- Bytes by key, in one canonical form: keys strictly rising, and no entry that holds what an unlisted key reads as
(Memory.wf in Machine/Ops.lean). -/
abbrev Memory := List Host.Cell

/-- A ROM image: its length and its bytes by offset (R54, R71). -/
structure Image where
  len : Nat
  cells : Memory
  deriving DecidableEq, Repr

/-- The screen mirroring mode of a cartridge, recorded and not interpreted (R73, R77). -/
inductive Mirroring where
  | horizontal | vertical | fourScreen
  deriving DecidableEq, Repr

/-- The ROM record of the platform (R54, R71 to R73, R77). -/
structure Rom where
  prg : Image
  chr : Image
  mapper : Byte
  mirroring : Mirroring
  deriving DecidableEq, Repr

/-- The machine: the six registers (R20), IR (R30), halted (R31), fault (R32), and the platform's RAM by physical
index (R55) and ROM record (R54), which the launch fixes and no step changes. -/
structure State where
  a : Byte
  x : Byte
  y : Byte
  sp : Byte
  pc : Word
  p : Byte
  ir : Byte
  halted : Bool
  fault : Option FaultRecord
  ram : Memory
  rom : Rom
  deriving DecidableEq, Repr

/-- What a step or a meaning answers. -/
abbrev Out := Host.Outcome State Fault Refusal

/-- The state right after the first reset (R45, R270): A, X, SP, P and halted as the spec states, no fault, memory with
nothing listed. The launch parameters it needs are DESIGN CHOICES, unsafe: y0 = 0x00 (log entry 1), RAM all 0x00 (log
entry 2), a PRG image of 0x4000 zero bytes, whose reset vector is therefore 0x0000 (log entry 3), IR = 0x00 (log
entry 4). Any other launch is another state: see launch in Machine/Launch.lean. -/
def State.reset : State where
  a := 0x00
  x := 0x00
  y := 0x00
  sp := Config.spReset
  pc := 0x0000
  p := Config.pReset
  ir := 0x00
  halted := false
  fault := none
  ram := []
  rom :=
    { prg := { len := Config.prgBank, cells := [] }
      chr := { len := 0, cells := [] }
      mapper := 0x00
      mirroring := .horizontal }

end Sys2Proof.Machine
end

