-- ==== Sys2Proof/Machine/Flags.lean ====
section
/-! DEFINITION. The status register P by flag, SetZN, and every flag and result computation of the ALU
(R26, R35, R36, R120 to R133, R140, R163, R187, R189). -/

namespace Sys2Proof.Machine

/-- The eight flags of P (R26). -/
inductive Flag where
  | c | z | i | d | b | u | v | n
  deriving DecidableEq, Repr

/-- The bit of P that holds a flag (R26). -/
def Flag.bit : Flag → Nat
  | .c => 0
  | .z => 1
  | .i => 2
  | .d => 3
  | .b => 4
  | .u => 5
  | .v => 6
  | .n => 7

/-- A flag of a status byte (R26). -/
def getFlag (f : Flag) (p : Byte) : Bool := p.getLsbD f.bit

/-- A status byte with one flag written and the seven others kept (R26: eight independent flags). -/
def putFlag (f : Flag) (v : Bool) (p : Byte) : Byte :=
  let mask : Byte := BitVec.twoPow 8 f.bit
  if v then p ||| mask else p &&& ~~~mask

/-- SetZN: Z from whether the result is zero, N from its bit 7, no other flag (R35). -/
def setZN (r : Byte) (p : Byte) : Byte := putFlag .n (r.getLsbD 7) (putFlag .z (r == 0) p)

/-- The carry as a number (R120). -/
def carryNat (p : Byte) : Nat := (getFlag .c p).toNat

/-- ADC's sum, an integer 0 to 511 (R120). -/
def adcSum (a m p : Byte) : Nat := a.toNat + m.toNat + carryNat p

/-- ADC's result byte: the sum modulo 256 (R120). -/
def adcResult (a m p : Byte) : Byte := BitVec.ofNat 8 (adcSum a m p)

/-- P after ADC: C, V, then Z and N of the result. D is not read (R120, R123). -/
def adcFlags (a m p : Byte) : Byte :=
  let r := adcResult a m p
  let v := (~~~(a ^^^ m) &&& (a ^^^ r) &&& 0x80) != 0
  setZN r (putFlag .v v (putFlag .c (decide (adcSum a m p > 0xFF)) p))

/-- SBC's difference, an integer -256 to 255; the borrow is the complement of C (R121). -/
def sbcDiff (a m p : Byte) : Int := (a.toNat : Int) - m.toNat - (1 - carryNat p)

/-- SBC's result byte: the difference modulo 256 (R121). -/
def sbcResult (a m p : Byte) : Byte := BitVec.ofInt 8 (sbcDiff a m p)

/-- P after SBC: C when no borrow occurred, V, then Z and N of the result. D is not read (R121, C9, R123). -/
def sbcFlags (a m p : Byte) : Byte :=
  let r := sbcResult a m p
  let v := ((a ^^^ m) &&& (a ^^^ r) &&& 0x80) != 0
  setZN r (putFlag .v v (putFlag .c (decide (sbcDiff a m p ≥ 0)) p))

/-- ASL of a byte: result and P (R130). -/
def aslByte (v p : Byte) : Byte × Byte :=
  let r := v <<< 1
  (r, setZN r (putFlag .c (v.getLsbD 7) p))

/-- LSR of a byte: result and P (R131). -/
def lsrByte (v p : Byte) : Byte × Byte :=
  let r := v >>> 1
  (r, setZN r (putFlag .c (v.getLsbD 0) p))

/-- ROL of a byte through the previous carry: result and P (R132). -/
def rolByte (v p : Byte) : Byte × Byte :=
  let r := (v <<< 1) ||| BitVec.ofNat 8 (carryNat p)
  (r, setZN r (putFlag .c (v.getLsbD 7) p))

/-- ROR of a byte through the previous carry: result and P (R133). -/
def rorByte (v p : Byte) : Byte × Byte :=
  let r := (v >>> 1) ||| (BitVec.ofNat 8 (carryNat p) <<< 7)
  (r, setZN r (putFlag .c (v.getLsbD 0) p))

/-- INC of a byte: result and P (R144). -/
def incByte (v p : Byte) : Byte × Byte := (v + 1, setZN (v + 1) p)

/-- DEC of a byte: result and P (R145). -/
def decByte (v p : Byte) : Byte × Byte := (v - 1, setZN (v - 1) p)

/-- P after Compare: C from the unsigned comparison, Z and N from the wrapped difference (R140). -/
def compareFlags (reg m p : Byte) : Byte := setZN (reg - m) (putFlag .c (decide (m.toNat ≤ reg.toNat)) p)

/-- P after BIT: Z from A and the operand, N and V from the operand's bits 7 and 6 (R163). -/
def bitFlags (a m p : Byte) : Byte :=
  putFlag .v (m.getLsbD 6) (putFlag .n (m.getLsbD 7) (putFlag .z ((a &&& m) == 0) p))

/-- The copy of P that PHP pushes: B and U forced to 1 (R187). -/
def pushedStatus (p : Byte) : Byte := p ||| 0x30

/-- P restored from a pulled byte: B cleared, U set, the six other flags as pulled (R189, R204). -/
def restoredStatus (v : Byte) : Byte := (v &&& 0xEF) ||| 0x20

end Sys2Proof.Machine
end

