-- ==== Sys2Proof/Machine/Ops.lean ====
section
/-! DEFINITION. The named operations over memory and registers: the address map, the stack primitives, PC advance,
taking a fault and the status restore of a return (R11, R13, R14, R40 to R43, R50 to R63, R93, R100, R240). -/

namespace Sys2Proof.Machine

/-! ### Bytes by key -/

/-- The byte at a key; an unlisted key reads Config.unlistedByte (log entry 2). -/
def Memory.read : Memory → Nat → Byte
  | [], _ => Config.unlistedByte
  | (a, b) :: t, k => if k = a then b else Memory.read t k

/-- Write a byte, keeping the canonical form: writing the unlisted byte removes the entry. -/
def Memory.write : Memory → Nat → Byte → Memory
  | [], k, v => if v = Config.unlistedByte then [] else [(k, v)]
  | (a, b) :: t, k, v =>
    if k < a then (if v = Config.unlistedByte then (a, b) :: t else (k, v) :: (a, b) :: t)
    else if k = a then (if v = Config.unlistedByte then t else (k, v) :: t)
    else (a, b) :: Memory.write t k v

/-- Every key of the list is above a bound. -/
def Memory.above (k : Nat) : Memory → Bool
  | [] => true
  | (a, _) :: t => decide (k < a) && Memory.above k t

/-- The canonical form: keys strictly rising, no entry that holds the unlisted byte. -/
def Memory.wf : Memory → Bool
  | [] => true
  | (a, b) :: t => decide (b ≠ Config.unlistedByte) && Memory.above a t && Memory.wf t

/-- Every key is below a bound. -/
def Memory.below (n : Nat) : Memory → Bool
  | [] => true
  | (a, _) :: t => decide (a < n) && Memory.below n t

/-- A ROM image is in canonical form when its bytes are and lie inside its length. -/
def Image.wf (i : Image) : Bool := i.cells.wf && i.cells.below i.len

/-! ### Widths -/

/-- A byte read as the number 0 to 255 in 16 bits (R11). -/
def zext16 (b : Byte) : Word := b.setWidth 16

/-- A byte read as a two's-complement number in 16 bits (R11). -/
def sext16 (b : Byte) : Word := b.signExtend 16

/-! ### The address map -/

/-- The physical RAM index of an address in the RAM window: bits above bit 10 are ignored (R55). -/
def ramIndex (addr : Word) : Nat := (addr &&& 0x07FF).toNat

/-- The address lies in the RAM window (R51). -/
def inRam (addr : Word) : Bool := decide (addr.toNat ≤ Config.ramLast)

/-- The PRG offset a PRG-window address reads, or none past the image (R52, R54): a 16 KiB image is mirrored. -/
def prgOffset (len : Nat) (addr : Word) : Option Nat :=
  let i := addr.toNat - Config.prgBase
  let j := if len = Config.prgBank then i % Config.prgBank else i
  if j < len then some j else none

/-- The answer of a read: a value, or the fault the read raises, with the address it raises it for (R52). -/
inductive Access (α : Type) where
  | ok (v : α)
  | fault (k : Fault) (addr : Word)
  deriving DecidableEq, Repr

/-- Read, then go on with the value; the first fault ends it (R14, R246). -/
def Access.bind {α β : Type} (r : Access α) (f : α → Access β) : Access β :=
  match r with
  | .ok v => f v
  | .fault k addr => .fault k addr

/-- The byte of physical RAM an address of the RAM window designates (R55). -/
def ramByte (addr : Word) (s : State) : Byte := s.ram.read (ramIndex addr)

/-- MemRead(addr, 1) (R52): RAM, the inert windows that read 0 (R56, R57), PRG-ROM (R54). -/
def readByte (addr : Word) (s : State) : Access Byte :=
  if inRam addr then .ok (ramByte addr s)
  else if addr.toNat ≤ Config.inertLast then .ok 0x00
  else
    match prgOffset s.rom.prg.len addr with
    | some j => .ok (s.rom.prg.cells.read j)
    | none => .fault .prgOutOfRange addr

/-- MemWrite(addr, 1, v) (R53): stores in RAM, and has no effect anywhere else (R56, R57, R58). -/
def writeByte (addr : Word) (v : Byte) (s : State) : State :=
  if inRam addr then { s with ram := s.ram.write (ramIndex addr) v } else s

/-- MemRead(addr, 2): low byte first, the second address modulo 65536 (R13, R60, D10). -/
def readWord (addr : Word) (s : State) : Access Word :=
  (readByte addr s).bind fun lo =>
  (readByte (addr + 1) s).bind fun hi => .ok (mkWord hi lo)

/-- MemWrite(addr, 2, w) (R60). The core never issues it. -/
def writeWord (addr : Word) (w : Word) (s : State) : State :=
  writeByte (addr + 1) (hiByte w) (writeByte addr (loByte w) s)

/-- MemReadZP16(p): the pointer wraps in page 0 (R13, R100). Page 0 is RAM, so the two reads cannot fault. -/
def zpWord (p : Byte) (s : State) : Word := mkWord (ramByte (zext16 (p + 1)) s) (ramByte (zext16 p) s)

/-! ### The stack -/

/-- The address SP designates: always in page 1 (R24, R43). -/
def stackAddr (sp : Byte) : Word := Config.stackPage + zext16 sp

/-- Push(v): write, then decrement SP (R40). -/
def push (v : Byte) (s : State) : State :=
  let t := writeByte (stackAddr s.sp) v s
  { t with sp := s.sp - 1 }

/-- SP after Pull() (R41). -/
def pullSp (s : State) : State := { s with sp := s.sp + 1 }

/-- The byte Pull() reads, at the incremented SP (R41). Page 1 is RAM, so the read cannot fault (R43). -/
def pullByte (s : State) : Byte := ramByte (stackAddr (s.sp + 1)) s

/-- PushWord(w): high byte first (R42). -/
def pushWord (w : Word) (s : State) : State := push (loByte w) (push (hiByte w) s)

/-- The word PullWord() reads: low byte first (R42). -/
def pullWordValue (s : State) : Word := mkWord (pullByte (pullSp s)) (pullByte s)

/-- SP after PullWord() (R42). -/
def pullWordSp (s : State) : State := pullSp (pullSp s)

/-! ### PC, faults, return -/

/-- The advance after an instruction that does not set PC: its length less one (R93). In the execute phase PC holds
the address of the first operand byte (R25, R91). -/
def advance (o : Operand) (s : State) : State := { s with pc := s.pc + BitVec.ofNat 16 o.size }

/-- TAKING A FAULT (R14, R240): the record is set, and nothing else changes. The writes made before it stay, PC gets
no advance, and nothing vectors (R244). pc0 is the opcode's address. -/
def raiseAt (pc0 : Word) (k : Fault) (addr : Word) (s : State) : State :=
  { s with fault := some { kind := k, pc := pc0, ir := s.ir, addr := addr } }

/-- Taking a fault in the execute phase, where PC is still the opcode's address plus 1 (R25, R240). -/
def raise (k : Fault) (addr : Word) (s : State) : State := raiseAt (s.pc - 1) k addr s

/-- RETURN: the status pulled by PLP and RTI, B cleared and U set (R189, R204, C4). -/
def pullStatus (s : State) : State := { pullSp s with p := restoredStatus (pullByte s) }

/-- Go on with a value read, or take the fault the read raises. -/
def Access.run {α : Type} (r : Access α) (s : State) (k : α → Out) : Out :=
  match r with
  | .ok v => k v
  | .fault f addr => .next (raise f addr s)

end Sys2Proof.Machine
end

