-- ==== Sys2Proof/Machine/Operands.lean ====
section
/-! DEFINITION. The addressing-mode resolver and the shapes of an instruction over it: read, store,
read-modify-write (R96 to R106, R98). -/

namespace Sys2Proof.Machine

/-- An indexed zero-page address: base plus index, wrapped in page 0 (R100). -/
def zpIndexed (zp index : Byte) : Word := zext16 (zp + index)

/-- An indexed absolute address: the index is unsigned, the sum wraps at 16 bits (R101). -/
def absIndexed (addr : Word) (index : Byte) : Word := addr + zext16 index

/-- The address JMP (Indirect) takes its high byte from: in the pointer's own page (R104). -/
def pointerHigh (ptr : Word) : Word := if loByte ptr = 0xFF then ptr &&& 0xFF00 else ptr + 1

/-- The word an Indirect pointer designates, low byte read first (R104). -/
def indirectTarget (ptr : Word) (s : State) : Access Word :=
  (readByte ptr s).bind fun lo =>
  (readByte (pointerHigh ptr) s).bind fun hi => .ok (mkWord hi lo)

/-- EA(mode) of R97, for an operand whose bytes the fetch has read; none where there is no address (R106): for
NoneAddressing, and for Relative, which is no descriptor mode (R96, C6). It changes no state. -/
def ea (o : Operand) (s : State) : Option (Access Word) :=
  match o with
  | .none => none
  | .relative _ => none
  | .immediate _ => some (.ok s.pc)
  | .zeroPage zp => some (.ok (zext16 zp))
  | .zeroPageX zp => some (.ok (zpIndexed zp s.x))
  | .zeroPageY zp => some (.ok (zpIndexed zp s.y))
  | .absolute addr => some (.ok addr)
  | .absoluteX addr => some (.ok (absIndexed addr s.x))
  | .absoluteY addr => some (.ok (absIndexed addr s.y))
  | .indirectX zp => some (.ok (zpWord (zp + s.x) s))
  | .indirectY zp => some (.ok (absIndexed (zpWord zp s) s.y))
  | .indirect ptr => some (indirectTarget ptr s)

/-- Operand(mode) of R98: the byte at EA; for Immediate the instruction's own second byte (R99). -/
def operandByte (o : Operand) (s : State) : Option (Access Byte) :=
  match o with
  | .immediate imm => some (.ok imm)
  | _ => (ea o s).map fun r => r.bind fun addr => readByte addr s

/-- RelTarget() of R105: the signed offset added to the address after the offset byte. -/
def relTarget (off : Byte) (s : State) : Word := s.pc + 1 + sext16 off

/-- Use an effective address: its fault is taken, and a mode without one is refused (R106, D27). -/
def withEA (o : Operand) (s : State) (k : Word → Out) : Out :=
  match ea o s with
  | none => .refused .noEffectiveAddress
  | some r => r.run s k

/-- An instruction that reads its memory operand m and goes on to f m, then the advance (R93, R98). -/
def readOp (o : Operand) (f : Byte → State → State) (s : State) : Out :=
  match operandByte o s with
  | none => .refused .noEffectiveAddress
  | some r => r.run s fun m => .next (advance o (f m s))

/-- A store of v: the address is computed and written, the operand is not read (R98, R167). -/
def storeOp (o : Operand) (v : Byte) (s : State) : Out :=
  withEA o s fun addr => .next (advance o (writeByte addr v s))

/-- A read-modify-write: EA once, one read, one write to the same address, and P (R98, R134, R144). f gives the result
and the new P from the byte read and the old P. -/
def rmwOp (o : Operand) (f : Byte → Byte → Byte × Byte) (s : State) : Out :=
  withEA o s fun addr =>
    (readByte addr s).run s fun v =>
      let r := f v s.p
      .next (advance o (writeByte addr r.1 { s with p := r.2 }))

end Sys2Proof.Machine
end

