-- ==== Sys2Proof/Machine/AddSub.lean ====
section
/-! DEFINITION. Add and subtract: ADC, SBC (R120 to R123, spec/40_add_subtract.md). -/

namespace Sys2Proof.Machine

/-- ADC of an operand byte: A and the flags C, V, Z, N (R120). Both are computed from the old A. -/
def adc (m : Byte) (s : State) : State := { s with a := adcResult s.a m s.p, p := adcFlags s.a m s.p }

/-- SBC of an operand byte: A and the flags C, V, Z, N (R121). Both are computed from the old A. -/
def sbc (m : Byte) (s : State) : State := { s with a := sbcResult s.a m s.p, p := sbcFlags s.a m s.p }

/-- ADC #$ii, opcode 0x69 (R120). -/
def execAdcImm (imm : Byte) (s : State) : Out := readOp (.immediate imm) adc s

/-- ADC $zz, opcode 0x65 (R120). -/
def execAdcZp (zp : Byte) (s : State) : Out := readOp (.zeroPage zp) adc s

/-- ADC $zz,X, opcode 0x75 (R120). -/
def execAdcZpX (zp : Byte) (s : State) : Out := readOp (.zeroPageX zp) adc s

/-- ADC $hhll, opcode 0x6D (R120). -/
def execAdcAbs (addr : Word) (s : State) : Out := readOp (.absolute addr) adc s

/-- ADC $hhll,X, opcode 0x7D (R120). -/
def execAdcAbsX (addr : Word) (s : State) : Out := readOp (.absoluteX addr) adc s

/-- ADC $hhll,Y, opcode 0x79 (R120). -/
def execAdcAbsY (addr : Word) (s : State) : Out := readOp (.absoluteY addr) adc s

/-- ADC ($zz,X), opcode 0x61 (R120). -/
def execAdcIndX (zp : Byte) (s : State) : Out := readOp (.indirectX zp) adc s

/-- ADC ($zz),Y, opcode 0x71 (R120). -/
def execAdcIndY (zp : Byte) (s : State) : Out := readOp (.indirectY zp) adc s

/-- SBC #$ii, opcode 0xE9 (R121). -/
def execSbcImm (imm : Byte) (s : State) : Out := readOp (.immediate imm) sbc s

/-- SBC $zz, opcode 0xE5 (R121). -/
def execSbcZp (zp : Byte) (s : State) : Out := readOp (.zeroPage zp) sbc s

/-- SBC $zz,X, opcode 0xF5 (R121). -/
def execSbcZpX (zp : Byte) (s : State) : Out := readOp (.zeroPageX zp) sbc s

/-- SBC $hhll, opcode 0xED (R121). -/
def execSbcAbs (addr : Word) (s : State) : Out := readOp (.absolute addr) sbc s

/-- SBC $hhll,X, opcode 0xFD (R121). -/
def execSbcAbsX (addr : Word) (s : State) : Out := readOp (.absoluteX addr) sbc s

/-- SBC $hhll,Y, opcode 0xF9 (R121). -/
def execSbcAbsY (addr : Word) (s : State) : Out := readOp (.absoluteY addr) sbc s

/-- SBC ($zz,X), opcode 0xE1 (R121). -/
def execSbcIndX (zp : Byte) (s : State) : Out := readOp (.indirectX zp) sbc s

/-- SBC ($zz),Y, opcode 0xF1 (R121). -/
def execSbcIndY (zp : Byte) (s : State) : Out := readOp (.indirectY zp) sbc s

end Sys2Proof.Machine
end

