-- ==== Sys2Proof/Machine/CompareIncDec.lean ====
section
/-! DEFINITION. Compare, increment and decrement: CMP, CPX, CPY, INC, DEC, INX, INY, DEX, DEY (R140 to R149,
spec/42_compare_incdec.md). -/

namespace Sys2Proof.Machine

/-- Compare of a register with an operand byte: only P changes (R140). -/
def compareReg (reg m : Byte) (s : State) : State := { s with p := compareFlags reg m s.p }

/-- X with a new value and SetZN of it. -/
def setX (v : Byte) (s : State) : State := { s with x := v, p := setZN v s.p }

/-- Y with a new value and SetZN of it. -/
def setY (v : Byte) (s : State) : State := { s with y := v, p := setZN v s.p }

/-- CMP #$ii, opcode 0xC9 (R141). -/
def execCmpImm (imm : Byte) (s : State) : Out := readOp (.immediate imm) (compareReg s.a) s

/-- CMP $zz, opcode 0xC5 (R141). -/
def execCmpZp (zp : Byte) (s : State) : Out := readOp (.zeroPage zp) (compareReg s.a) s

/-- CMP $zz,X, opcode 0xD5 (R141). -/
def execCmpZpX (zp : Byte) (s : State) : Out := readOp (.zeroPageX zp) (compareReg s.a) s

/-- CMP $hhll, opcode 0xCD (R141). -/
def execCmpAbs (addr : Word) (s : State) : Out := readOp (.absolute addr) (compareReg s.a) s

/-- CMP $hhll,X, opcode 0xDD (R141). -/
def execCmpAbsX (addr : Word) (s : State) : Out := readOp (.absoluteX addr) (compareReg s.a) s

/-- CMP $hhll,Y, opcode 0xD9 (R141). -/
def execCmpAbsY (addr : Word) (s : State) : Out := readOp (.absoluteY addr) (compareReg s.a) s

/-- CMP ($zz,X), opcode 0xC1 (R141). -/
def execCmpIndX (zp : Byte) (s : State) : Out := readOp (.indirectX zp) (compareReg s.a) s

/-- CMP ($zz),Y, opcode 0xD1 (R141). -/
def execCmpIndY (zp : Byte) (s : State) : Out := readOp (.indirectY zp) (compareReg s.a) s

/-- CPX #$ii, opcode 0xE0 (R142). -/
def execCpxImm (imm : Byte) (s : State) : Out := readOp (.immediate imm) (compareReg s.x) s

/-- CPX $zz, opcode 0xE4 (R142). -/
def execCpxZp (zp : Byte) (s : State) : Out := readOp (.zeroPage zp) (compareReg s.x) s

/-- CPX $hhll, opcode 0xEC (R142). -/
def execCpxAbs (addr : Word) (s : State) : Out := readOp (.absolute addr) (compareReg s.x) s

/-- CPY #$ii, opcode 0xC0 (R143). -/
def execCpyImm (imm : Byte) (s : State) : Out := readOp (.immediate imm) (compareReg s.y) s

/-- CPY $zz, opcode 0xC4 (R143). -/
def execCpyZp (zp : Byte) (s : State) : Out := readOp (.zeroPage zp) (compareReg s.y) s

/-- CPY $hhll, opcode 0xCC (R143). -/
def execCpyAbs (addr : Word) (s : State) : Out := readOp (.absolute addr) (compareReg s.y) s

/-- INC $zz, opcode 0xE6 (R144). -/
def execIncZp (zp : Byte) (s : State) : Out := rmwOp (.zeroPage zp) incByte s

/-- INC $zz,X, opcode 0xF6 (R144). -/
def execIncZpX (zp : Byte) (s : State) : Out := rmwOp (.zeroPageX zp) incByte s

/-- INC $hhll, opcode 0xEE (R144). -/
def execIncAbs (addr : Word) (s : State) : Out := rmwOp (.absolute addr) incByte s

/-- INC $hhll,X, opcode 0xFE (R144). -/
def execIncAbsX (addr : Word) (s : State) : Out := rmwOp (.absoluteX addr) incByte s

/-- DEC $zz, opcode 0xC6 (R145). -/
def execDecZp (zp : Byte) (s : State) : Out := rmwOp (.zeroPage zp) decByte s

/-- DEC $zz,X, opcode 0xD6 (R145). -/
def execDecZpX (zp : Byte) (s : State) : Out := rmwOp (.zeroPageX zp) decByte s

/-- DEC $hhll, opcode 0xCE (R145). -/
def execDecAbs (addr : Word) (s : State) : Out := rmwOp (.absolute addr) decByte s

/-- DEC $hhll,X, opcode 0xDE (R145). -/
def execDecAbsX (addr : Word) (s : State) : Out := rmwOp (.absoluteX addr) decByte s

/-- INX, opcode 0xE8 (R146). -/
def execInx (s : State) : Out := .next (advance .none (setX (s.x + 1) s))

/-- INY, opcode 0xC8 (R147). -/
def execIny (s : State) : Out := .next (advance .none (setY (s.y + 1) s))

/-- DEX, opcode 0xCA (R148). -/
def execDex (s : State) : Out := .next (advance .none (setX (s.x - 1) s))

/-- DEY, opcode 0x88 (R149). -/
def execDey (s : State) : Out := .next (advance .none (setY (s.y - 1) s))

end Sys2Proof.Machine
end

