-- ==== Sys2Proof/Machine/Control.lean ====
section
/-! DEFINITION. Control transfer: JMP, JSR, RTS, RTI, the branches, BRK (R200 to R216, spec/45_control.md). -/

namespace Sys2Proof.Machine

/-- The physical RAM indices JSR's two pushes write (R202). -/
def jsrPushTargets (s : State) : List Nat := [ramIndex (stackAddr s.sp), ramIndex (stackAddr (s.sp - 1))]

/-- An address is the same physical RAM byte as one JSR would push to (R202). -/
def jsrAliases (addr : Word) (s : State) : Bool := inRam addr && (jsrPushTargets s).contains (ramIndex addr)

/-- JSR's overlap check: the first of its two operand addresses that a push would overwrite, or none (R202, R243). -/
def jsrOverlap (s : State) : Option Word :=
  if jsrAliases s.pc s then some s.pc
  else if jsrAliases (s.pc + 1) s then some (s.pc + 1)
  else none

/-- JSR's pushes: the address of its own last byte, high byte first (R202). -/
def jsrPush (s : State) : State := pushWord (s.pc + 1) s

/-- Branch(cond): a taken branch sets PC and gets no advance, a branch not taken gets the advance (R94, R205). -/
def branch (cond : Bool) (off : Byte) (s : State) : Out :=
  .next (if cond then { s with pc := relTarget off s } else advance (.relative off) s)

/-- JMP $hhll, opcode 0x4C (R200). -/
def execJmpAbs (addr : Word) (s : State) : Out :=
  withEA (.absolute addr) s fun target => .next { s with pc := target }

/-- JMP ($hhll), opcode 0x6C (R201). -/
def execJmpInd (ptr : Word) (s : State) : Out :=
  withEA (.indirect ptr) s fun target => .next { s with pc := target }

/-- JSR $hhll, opcode 0x20 (R202): the overlap check, then the pushes, then PC. The spec reads the target after the
pushes; without an overlap they change neither operand byte, so the target the fetch read is that word (log entry 7). -/
def execJsr (addr : Word) (s : State) : Out :=
  match jsrOverlap s with
  | some hit => .next (raise .stackOverlapsOperand hit s)
  | none => .next { jsrPush s with pc := addr }

/-- RTS, opcode 0x60 (R203): the pulled word plus 1. -/
def execRts (s : State) : Out := .next { pullWordSp s with pc := pullWordValue s + 1 }

/-- RTI, opcode 0x40 (R204): P first, then PC, low byte then high, nothing added. -/
def execRti (s : State) : Out :=
  let t := pullStatus s
  .next { pullWordSp t with pc := pullWordValue t }

/-- BCC target, opcode 0x90 (R206). -/
def execBcc (off : Byte) (s : State) : Out := branch (!getFlag .c s.p) off s

/-- BCS target, opcode 0xB0 (R207). -/
def execBcs (off : Byte) (s : State) : Out := branch (getFlag .c s.p) off s

/-- BEQ target, opcode 0xF0 (R208). -/
def execBeq (off : Byte) (s : State) : Out := branch (getFlag .z s.p) off s

/-- BNE target, opcode 0xD0 (R209). -/
def execBne (off : Byte) (s : State) : Out := branch (!getFlag .z s.p) off s

/-- BMI target, opcode 0x30 (R210). -/
def execBmi (off : Byte) (s : State) : Out := branch (getFlag .n s.p) off s

/-- BPL target, opcode 0x10 (R211). -/
def execBpl (off : Byte) (s : State) : Out := branch (!getFlag .n s.p) off s

/-- BVC target, opcode 0x50 (R212). -/
def execBvc (off : Byte) (s : State) : Out := branch (!getFlag .v s.p) off s

/-- BVS target, opcode 0x70 (R213). -/
def execBvs (off : Byte) (s : State) : Out := branch (getFlag .v s.p) off s

/-- BRK, opcode 0x00 (R215): sets B and halts. It pushes nothing, reads no vector and leaves I. -/
def execBrk (s : State) : Out := .next (advance .none { s with p := putFlag .b true s.p, halted := true })

end Sys2Proof.Machine
end

