-- ==== Sys2Proof/Machine/FlagNop.lean ====
section
/-! DEFINITION. Flag instructions and NOP: CLC, SEC, CLI, SEI, CLD, SED, CLV, NOP (R230 to R237,
spec/46_flag_nop.md). -/

namespace Sys2Proof.Machine

/-- Write one flag of P and no other state. -/
def setFlag (f : Flag) (v : Bool) (s : State) : State := { s with p := putFlag f v s.p }

/-- CLC, opcode 0x18 (R230). -/
def execClc (s : State) : Out := .next (advance .none (setFlag .c false s))

/-- SEC, opcode 0x38 (R231). -/
def execSec (s : State) : Out := .next (advance .none (setFlag .c true s))

/-- CLI, opcode 0x58 (R232). -/
def execCli (s : State) : Out := .next (advance .none (setFlag .i false s))

/-- SEI, opcode 0x78 (R233). -/
def execSei (s : State) : Out := .next (advance .none (setFlag .i true s))

/-- CLD, opcode 0xD8 (R234). -/
def execCld (s : State) : Out := .next (advance .none (setFlag .d false s))

/-- SED, opcode 0xF8 (R235). -/
def execSed (s : State) : Out := .next (advance .none (setFlag .d true s))

/-- CLV, opcode 0xB8 (R236). -/
def execClv (s : State) : Out := .next (advance .none (setFlag .v false s))

/-- NOP, opcode 0xEA (R237). -/
def execNop (s : State) : Out := .next (advance .none s)

end Sys2Proof.Machine
end

