-- ==== Sys2Proof/Machine/LogicLoadStore.lean ====
section
/-! DEFINITION. Logic, BIT, loads and stores: AND, ORA, EOR, BIT, LDA, LDX, LDY, STA, STX, STY (R160 to R169,
spec/43_logic_load_store.md). -/

namespace Sys2Proof.Machine

/-- A with a new value and SetZN of it. -/
def setA (v : Byte) (s : State) : State := { s with a := v, p := setZN v s.p }

/-- BIT of an operand byte: only P changes (R163). -/
def bitTest (m : Byte) (s : State) : State := { s with p := bitFlags s.a m s.p }

/-- AND #$ii, opcode 0x29 (R160). -/
def execAndImm (imm : Byte) (s : State) : Out := readOp (.immediate imm) (fun m => setA (s.a &&& m)) s

/-- AND $zz, opcode 0x25 (R160). -/
def execAndZp (zp : Byte) (s : State) : Out := readOp (.zeroPage zp) (fun m => setA (s.a &&& m)) s

/-- AND $zz,X, opcode 0x35 (R160). -/
def execAndZpX (zp : Byte) (s : State) : Out := readOp (.zeroPageX zp) (fun m => setA (s.a &&& m)) s

/-- AND $hhll, opcode 0x2D (R160). -/
def execAndAbs (addr : Word) (s : State) : Out := readOp (.absolute addr) (fun m => setA (s.a &&& m)) s

/-- AND $hhll,X, opcode 0x3D (R160). -/
def execAndAbsX (addr : Word) (s : State) : Out := readOp (.absoluteX addr) (fun m => setA (s.a &&& m)) s

/-- AND $hhll,Y, opcode 0x39 (R160). -/
def execAndAbsY (addr : Word) (s : State) : Out := readOp (.absoluteY addr) (fun m => setA (s.a &&& m)) s

/-- AND ($zz,X), opcode 0x21 (R160). -/
def execAndIndX (zp : Byte) (s : State) : Out := readOp (.indirectX zp) (fun m => setA (s.a &&& m)) s

/-- AND ($zz),Y, opcode 0x31 (R160). -/
def execAndIndY (zp : Byte) (s : State) : Out := readOp (.indirectY zp) (fun m => setA (s.a &&& m)) s

/-- ORA #$ii, opcode 0x09 (R161). -/
def execOraImm (imm : Byte) (s : State) : Out := readOp (.immediate imm) (fun m => setA (s.a ||| m)) s

/-- ORA $zz, opcode 0x05 (R161). -/
def execOraZp (zp : Byte) (s : State) : Out := readOp (.zeroPage zp) (fun m => setA (s.a ||| m)) s

/-- ORA $zz,X, opcode 0x15 (R161). -/
def execOraZpX (zp : Byte) (s : State) : Out := readOp (.zeroPageX zp) (fun m => setA (s.a ||| m)) s

/-- ORA $hhll, opcode 0x0D (R161). -/
def execOraAbs (addr : Word) (s : State) : Out := readOp (.absolute addr) (fun m => setA (s.a ||| m)) s

/-- ORA $hhll,X, opcode 0x1D (R161). -/
def execOraAbsX (addr : Word) (s : State) : Out := readOp (.absoluteX addr) (fun m => setA (s.a ||| m)) s

/-- ORA $hhll,Y, opcode 0x19 (R161). -/
def execOraAbsY (addr : Word) (s : State) : Out := readOp (.absoluteY addr) (fun m => setA (s.a ||| m)) s

/-- ORA ($zz,X), opcode 0x01 (R161). -/
def execOraIndX (zp : Byte) (s : State) : Out := readOp (.indirectX zp) (fun m => setA (s.a ||| m)) s

/-- ORA ($zz),Y, opcode 0x11 (R161). -/
def execOraIndY (zp : Byte) (s : State) : Out := readOp (.indirectY zp) (fun m => setA (s.a ||| m)) s

/-- EOR #$ii, opcode 0x49 (R162). -/
def execEorImm (imm : Byte) (s : State) : Out := readOp (.immediate imm) (fun m => setA (s.a ^^^ m)) s

/-- EOR $zz, opcode 0x45 (R162). -/
def execEorZp (zp : Byte) (s : State) : Out := readOp (.zeroPage zp) (fun m => setA (s.a ^^^ m)) s

/-- EOR $zz,X, opcode 0x55 (R162). -/
def execEorZpX (zp : Byte) (s : State) : Out := readOp (.zeroPageX zp) (fun m => setA (s.a ^^^ m)) s

/-- EOR $hhll, opcode 0x4D (R162). -/
def execEorAbs (addr : Word) (s : State) : Out := readOp (.absolute addr) (fun m => setA (s.a ^^^ m)) s

/-- EOR $hhll,X, opcode 0x5D (R162). -/
def execEorAbsX (addr : Word) (s : State) : Out := readOp (.absoluteX addr) (fun m => setA (s.a ^^^ m)) s

/-- EOR $hhll,Y, opcode 0x59 (R162). -/
def execEorAbsY (addr : Word) (s : State) : Out := readOp (.absoluteY addr) (fun m => setA (s.a ^^^ m)) s

/-- EOR ($zz,X), opcode 0x41 (R162). -/
def execEorIndX (zp : Byte) (s : State) : Out := readOp (.indirectX zp) (fun m => setA (s.a ^^^ m)) s

/-- EOR ($zz),Y, opcode 0x51 (R162). -/
def execEorIndY (zp : Byte) (s : State) : Out := readOp (.indirectY zp) (fun m => setA (s.a ^^^ m)) s

/-- BIT $zz, opcode 0x24 (R163). -/
def execBitZp (zp : Byte) (s : State) : Out := readOp (.zeroPage zp) bitTest s

/-- BIT $hhll, opcode 0x2C (R163). -/
def execBitAbs (addr : Word) (s : State) : Out := readOp (.absolute addr) bitTest s

/-- LDA #$ii, opcode 0xA9 (R164). -/
def execLdaImm (imm : Byte) (s : State) : Out := readOp (.immediate imm) setA s

/-- LDA $zz, opcode 0xA5 (R164). -/
def execLdaZp (zp : Byte) (s : State) : Out := readOp (.zeroPage zp) setA s

/-- LDA $zz,X, opcode 0xB5 (R164). -/
def execLdaZpX (zp : Byte) (s : State) : Out := readOp (.zeroPageX zp) setA s

/-- LDA $hhll, opcode 0xAD (R164). -/
def execLdaAbs (addr : Word) (s : State) : Out := readOp (.absolute addr) setA s

/-- LDA $hhll,X, opcode 0xBD (R164). -/
def execLdaAbsX (addr : Word) (s : State) : Out := readOp (.absoluteX addr) setA s

/-- LDA $hhll,Y, opcode 0xB9 (R164). -/
def execLdaAbsY (addr : Word) (s : State) : Out := readOp (.absoluteY addr) setA s

/-- LDA ($zz,X), opcode 0xA1 (R164). -/
def execLdaIndX (zp : Byte) (s : State) : Out := readOp (.indirectX zp) setA s

/-- LDA ($zz),Y, opcode 0xB1 (R164). -/
def execLdaIndY (zp : Byte) (s : State) : Out := readOp (.indirectY zp) setA s

/-- LDX #$ii, opcode 0xA2 (R165). -/
def execLdxImm (imm : Byte) (s : State) : Out := readOp (.immediate imm) setX s

/-- LDX $zz, opcode 0xA6 (R165). -/
def execLdxZp (zp : Byte) (s : State) : Out := readOp (.zeroPage zp) setX s

/-- LDX $zz,Y, opcode 0xB6 (R165). -/
def execLdxZpY (zp : Byte) (s : State) : Out := readOp (.zeroPageY zp) setX s

/-- LDX $hhll, opcode 0xAE (R165). -/
def execLdxAbs (addr : Word) (s : State) : Out := readOp (.absolute addr) setX s

/-- LDX $hhll,Y, opcode 0xBE (R165). -/
def execLdxAbsY (addr : Word) (s : State) : Out := readOp (.absoluteY addr) setX s

/-- LDY #$ii, opcode 0xA0 (R166). -/
def execLdyImm (imm : Byte) (s : State) : Out := readOp (.immediate imm) setY s

/-- LDY $zz, opcode 0xA4 (R166). -/
def execLdyZp (zp : Byte) (s : State) : Out := readOp (.zeroPage zp) setY s

/-- LDY $zz,X, opcode 0xB4 (R166). -/
def execLdyZpX (zp : Byte) (s : State) : Out := readOp (.zeroPageX zp) setY s

/-- LDY $hhll, opcode 0xAC (R166). -/
def execLdyAbs (addr : Word) (s : State) : Out := readOp (.absolute addr) setY s

/-- LDY $hhll,X, opcode 0xBC (R166). -/
def execLdyAbsX (addr : Word) (s : State) : Out := readOp (.absoluteX addr) setY s

/-- STA $zz, opcode 0x85 (R167). -/
def execStaZp (zp : Byte) (s : State) : Out := storeOp (.zeroPage zp) s.a s

/-- STA $zz,X, opcode 0x95 (R167). -/
def execStaZpX (zp : Byte) (s : State) : Out := storeOp (.zeroPageX zp) s.a s

/-- STA $hhll, opcode 0x8D (R167). -/
def execStaAbs (addr : Word) (s : State) : Out := storeOp (.absolute addr) s.a s

/-- STA $hhll,X, opcode 0x9D (R167). -/
def execStaAbsX (addr : Word) (s : State) : Out := storeOp (.absoluteX addr) s.a s

/-- STA $hhll,Y, opcode 0x99 (R167). -/
def execStaAbsY (addr : Word) (s : State) : Out := storeOp (.absoluteY addr) s.a s

/-- STA ($zz,X), opcode 0x81 (R167). -/
def execStaIndX (zp : Byte) (s : State) : Out := storeOp (.indirectX zp) s.a s

/-- STA ($zz),Y, opcode 0x91 (R167). -/
def execStaIndY (zp : Byte) (s : State) : Out := storeOp (.indirectY zp) s.a s

/-- STX $zz, opcode 0x86 (R168). -/
def execStxZp (zp : Byte) (s : State) : Out := storeOp (.zeroPage zp) s.x s

/-- STX $zz,Y, opcode 0x96 (R168). -/
def execStxZpY (zp : Byte) (s : State) : Out := storeOp (.zeroPageY zp) s.x s

/-- STX $hhll, opcode 0x8E (R168). -/
def execStxAbs (addr : Word) (s : State) : Out := storeOp (.absolute addr) s.x s

/-- STY $zz, opcode 0x84 (R169). -/
def execStyZp (zp : Byte) (s : State) : Out := storeOp (.zeroPage zp) s.y s

/-- STY $zz,X, opcode 0x94 (R169). -/
def execStyZpX (zp : Byte) (s : State) : Out := storeOp (.zeroPageX zp) s.y s

/-- STY $hhll, opcode 0x8C (R169). -/
def execStyAbs (addr : Word) (s : State) : Out := storeOp (.absolute addr) s.y s

end Sys2Proof.Machine
end

