-- ==== Sys2Proof/Machine/ShiftRotate.lean ====
section
/-! DEFINITION. Shifts and rotates: ASL, LSR, ROL, ROR (R130 to R134, spec/41_shift_rotate.md). -/

namespace Sys2Proof.Machine

/-- The accumulator form of a shift or rotate: A and P, no memory access (R134). -/
def shiftA (f : Byte → Byte → Byte × Byte) (s : State) : Out :=
  let r := f s.a s.p
  .next (advance .none { s with a := r.1, p := r.2 })

/-- ASL A, opcode 0x0A (R130). -/
def execAslA (s : State) : Out := shiftA aslByte s

/-- ASL $zz, opcode 0x06 (R130). -/
def execAslZp (zp : Byte) (s : State) : Out := rmwOp (.zeroPage zp) aslByte s

/-- ASL $zz,X, opcode 0x16 (R130). -/
def execAslZpX (zp : Byte) (s : State) : Out := rmwOp (.zeroPageX zp) aslByte s

/-- ASL $hhll, opcode 0x0E (R130). -/
def execAslAbs (addr : Word) (s : State) : Out := rmwOp (.absolute addr) aslByte s

/-- ASL $hhll,X, opcode 0x1E (R130). -/
def execAslAbsX (addr : Word) (s : State) : Out := rmwOp (.absoluteX addr) aslByte s

/-- LSR A, opcode 0x4A (R131). -/
def execLsrA (s : State) : Out := shiftA lsrByte s

/-- LSR $zz, opcode 0x46 (R131). -/
def execLsrZp (zp : Byte) (s : State) : Out := rmwOp (.zeroPage zp) lsrByte s

/-- LSR $zz,X, opcode 0x56 (R131). -/
def execLsrZpX (zp : Byte) (s : State) : Out := rmwOp (.zeroPageX zp) lsrByte s

/-- LSR $hhll, opcode 0x4E (R131). -/
def execLsrAbs (addr : Word) (s : State) : Out := rmwOp (.absolute addr) lsrByte s

/-- LSR $hhll,X, opcode 0x5E (R131). -/
def execLsrAbsX (addr : Word) (s : State) : Out := rmwOp (.absoluteX addr) lsrByte s

/-- ROL A, opcode 0x2A (R132). -/
def execRolA (s : State) : Out := shiftA rolByte s

/-- ROL $zz, opcode 0x26 (R132). -/
def execRolZp (zp : Byte) (s : State) : Out := rmwOp (.zeroPage zp) rolByte s

/-- ROL $zz,X, opcode 0x36 (R132). -/
def execRolZpX (zp : Byte) (s : State) : Out := rmwOp (.zeroPageX zp) rolByte s

/-- ROL $hhll, opcode 0x2E (R132). -/
def execRolAbs (addr : Word) (s : State) : Out := rmwOp (.absolute addr) rolByte s

/-- ROL $hhll,X, opcode 0x3E (R132). -/
def execRolAbsX (addr : Word) (s : State) : Out := rmwOp (.absoluteX addr) rolByte s

/-- ROR A, opcode 0x6A (R133). -/
def execRorA (s : State) : Out := shiftA rorByte s

/-- ROR $zz, opcode 0x66 (R133). -/
def execRorZp (zp : Byte) (s : State) : Out := rmwOp (.zeroPage zp) rorByte s

/-- ROR $zz,X, opcode 0x76 (R133). -/
def execRorZpX (zp : Byte) (s : State) : Out := rmwOp (.zeroPageX zp) rorByte s

/-- ROR $hhll, opcode 0x6E (R133). -/
def execRorAbs (addr : Word) (s : State) : Out := rmwOp (.absolute addr) rorByte s

/-- ROR $hhll,X, opcode 0x7E (R133). -/
def execRorAbsX (addr : Word) (s : State) : Out := rmwOp (.absoluteX addr) rorByte s

end Sys2Proof.Machine
end

