-- ==== Sys2Proof/Machine/TransferStack.lean ====
section
/-! DEFINITION. Register transfers and stack operations: TAX, TAY, TXA, TYA, TSX, TXS, PHA, PHP, PLA, PLP (R180 to
R189, spec/44_transfer_stack.md). -/

namespace Sys2Proof.Machine

/-- TAX, opcode 0xAA (R180). -/
def execTax (s : State) : Out := .next (advance .none (setX s.a s))

/-- TAY, opcode 0xA8 (R181). -/
def execTay (s : State) : Out := .next (advance .none (setY s.a s))

/-- TXA, opcode 0x8A (R182). -/
def execTxa (s : State) : Out := .next (advance .none (setA s.x s))

/-- TYA, opcode 0x98 (R183). -/
def execTya (s : State) : Out := .next (advance .none (setA s.y s))

/-- TSX, opcode 0xBA (R184). -/
def execTsx (s : State) : Out := .next (advance .none (setX s.sp s))

/-- TXS, opcode 0x9A (R185). -/
def execTxs (s : State) : Out := .next (advance .none { s with sp := s.x })

/-- PHA, opcode 0x48 (R186). -/
def execPha (s : State) : Out := .next (advance .none (push s.a s))

/-- PHP, opcode 0x08 (R187). -/
def execPhp (s : State) : Out := .next (advance .none (push (pushedStatus s.p) s))

/-- PLA, opcode 0x68 (R188). -/
def execPla (s : State) : Out := .next (advance .none (setA (pullByte s) (pullSp s)))

/-- PLP, opcode 0x28 (R189). -/
def execPlp (s : State) : Out := .next (advance .none (pullStatus s))

end Sys2Proof.Machine
end

