-- ==== Sys2Proof/Machine/Fetch.lean ====
section
/-! DEFINITION. The fetch of an instruction: opcode into IR, PC increment, decode, operand bytes (R25, R91, R92, R95). -/

namespace Sys2Proof.Machine

/-- What a fetch comes to: an instruction and the state of its execute phase, or the state a fault leaves. -/
inductive Fetched where
  | instr (i : Instr) (s : State)
  | stopped (s : State)

/-- The state of the execute phase: IR holds the opcode byte, PC the address of the first operand byte (R25, R91). -/
def executePhase (op : Byte) (s : State) : State := { s with ir := op, pc := s.pc + 1 }

/-- Read the operand bytes a template asks for, at PC and PC + 1, low byte first (R61, R95). -/
def fetchOperand (t : Template) (s : State) : Access Instr :=
  match t with
  | .implied i => .ok i
  | .byte build => (readByte s.pc s).bind fun b => .ok (build b)
  | .word build => (readWord s.pc s).bind fun w => .ok (build w)

/-- The fault of an operand read, in the execute phase. Every instruction but JSR reads its operand before it writes
anything (R68); JSR checks the overlap and pushes first, and a fault keeps those writes (R202, R240, log entry 7). -/
def operandFault (m : Mnemonic) (k : Fault) (addr : Word) (s : State) : State :=
  if m = .jsr then
    match jsrOverlap s with
    | some hit => raise .stackOverlapsOperand hit s
    | none => raise k addr (jsrPush s)
  else raise k addr s

/-- Fetch and decode at PC, with the faults in the order of R246: the opcode read, the decode, the operand reads.
An opcode read that faults leaves IR and PC as they were (R240, V167). -/
def fetch (s : State) : Fetched :=
  match readByte s.pc s with
  | .fault k addr => .stopped (raiseAt s.pc k addr s)
  | .ok op =>
    let t := executePhase op s
    match descriptor op with
    | none => .stopped (raise .illegalOpcode s.pc t)
    | some row =>
      match fetchOperand row.template t with
      | .ok i => .instr i t
      | .fault k addr => .stopped (operandFault row.mnemonic k addr t)

end Sys2Proof.Machine
end

