-- ==== Sys2Proof/Machine/Launch.lean ====
section
/-! DEFINITION. Power-on, the reset event, host writes and the program-loading helper (R45, R253, R270 to R279). -/

namespace Sys2Proof.Machine

/-- The launch parameters of R9 and R277 that the machine holds: prg and chr in the ROM record, ram0, y0. -/
structure Launch where
  rom : Rom
  ram0 : Memory
  y0 : Byte
  deriving DecidableEq, Repr

/-- The registers that are unspecified at power-on (R274, U7): any value, so an argument of powerOn (log entry 9). -/
structure Unspecified where
  a : Byte
  x : Byte
  sp : Byte
  pc : Word
  p : Byte
  ir : Byte
  deriving DecidableEq, Repr

/-- The state at power-on, before the first reset (R274). -/
def powerOn (l : Launch) (u : Unspecified) : State where
  a := u.a
  x := u.x
  y := l.y0
  sp := u.sp
  pc := u.pc
  p := u.p
  ir := u.ir
  halted := false
  fault := none
  ram := l.ram0
  rom := l.rom

/-- Reset() of R270: the vector read first, then the register writes; Y, IR, fault and memory stay. A vector read that
faults changes nothing but the record (R272), and a record already there stays (R240, R273, log entry 11). -/
def resetEvent (s : State) : State :=
  match readWord Config.resetVector s with
  | .ok v =>
    { s with
      pc := v, sp := Config.spReset, p := Config.pReset, a := 0x00, x := 0x00, halted := false }
  | .fault k addr => if s.fault.isSome then s else raiseAt Config.resetVector k addr s

/-- The state a launch starts from: power-on, then reset (R277). -/
def launch (l : Launch) (u : Unspecified) : State := resetEvent (powerOn l u)

/-- The empty ROM record of a platform without a cartridge (R76, log entry 3). -/
def Rom.empty : Rom :=
  { prg := { len := 0, cells := [] }, chr := { len := 0, cells := [] }, mapper := 0x00, mirroring := .horizontal }

/-- A write of the host at the observation point: one of the six registers or a RAM byte (R253, log entry 12). -/
inductive HostWrite where
  | a (v : Byte)
  | x (v : Byte)
  | y (v : Byte)
  | sp (v : Byte)
  | pc (v : Word)
  | p (v : Byte)
  | ram (addr : Word) (v : Byte)
  deriving DecidableEq, Repr

/-- A host write between two steps (R253, D15). A write outside the RAM window changes nothing: the host never writes
ROM (R279). -/
def hostWrite (w : HostWrite) (s : State) : State :=
  match w with
  | .a v => { s with a := v }
  | .x v => { s with x := v }
  | .y v => { s with y := v }
  | .sp v => { s with sp := v }
  | .pc v => { s with pc := v }
  | .p v => { s with p := v }
  | .ram addr v => writeByte addr v s

/-- The PRG offset the loading helper puts a byte at: modulo the image length, as R276 says of the program's bytes. The
vector bytes take the same form, which is the offset of 0xFFFC wherever R54 gives that address one; where it gives none
(an image shorter than 0x7FFE and not 0x4000 long) that is the model's own DESIGN CHOICE (log entry 15). -/
def installOffset (len : Nat) (addr : Word) : Nat := (addr.toNat - Config.prgBase) % len

/-- Put a byte in an image. -/
def Image.put (k : Nat) (v : Byte) (i : Image) : Image :=
  if k < i.len then { i with cells := i.cells.write k v } else i

/-- Install one byte before the run: in RAM, or in the PRG image as the host builds it (R276). The inert windows hold
nothing. -/
def installByte (addr : Word) (v : Byte) (s : State) : State :=
  if inRam addr then writeByte addr v s
  else if addr.toNat ≤ Config.inertLast then s
  else { s with rom := { s.rom with prg := s.rom.prg.put (installOffset s.rom.prg.len addr) v } }

/-- Install a byte sequence at increasing addresses (R276). DESIGN CHOICE (log entry 15): the address wraps, so a
program that runs past 0xFFFF goes on in RAM at 0x0000, and one that runs from RAM past 0x1FFF leaves out the bytes of
the inert windows. -/
def installBytes (addr : Word) : List Byte → State → State
  | [], s => s
  | v :: rest, s => installBytes (addr + 1) rest (installByte addr v s)

/-- The program-loading helper of R276, before reset: the bytes at load_addr and the reset vector pointed at it. DESIGN
CHOICE (log entry 15): the vector is put last, so where it and a program byte fall on one offset the vector stays. -/
def loadProgram (loadAddr : Word) (program : List Byte) (s : State) : State :=
  installBytes Config.resetVector [loByte loadAddr, hiByte loadAddr] (installBytes loadAddr program s)

end Sys2Proof.Machine
end

