-- ==== Sys2Proof/Machine/Program.lean ====
section
/-! DEFINITION. Placing an instruction at the fetch address: the host's load, as one operation (R275, R276). -/

namespace Sys2Proof.Machine

/-- A byte can be installed at this address and read back: RAM, or a PRG offset inside the image (R52, R276). -/
def placeable (addr : Word) (s : State) : Bool :=
  inRam addr || (decide (Config.prgBase ≤ addr.toNat) && (prgOffset s.rom.prg.len addr).isSome)

/-- Every byte of the sequence can be placed from this address on. -/
def allPlaceable (addr : Word) : List Byte → State → Bool
  | [], _ => true
  | _ :: rest, s => placeable addr s && allPlaceable (addr + 1) rest s

/-- Where a sequence is placed: at PC when all of it can be, else at the bottom of RAM (log entry 5). -/
def placeAddr (bytes : List Byte) (s : State) : Word := if allPlaceable s.pc bytes s then s.pc else 0x0000

/-- Install bytes at the fetch address and let the next step run: PC there, not halted, no fault recorded. -/
def placeProgram (bytes : List Byte) (s : State) : State :=
  let addr := placeAddr bytes s
  { installBytes addr bytes s with pc := addr, halted := false, fault := none }

end Sys2Proof.Machine
end

