-- ==== Sys2Proof/Machine/Step.lean ====
section
/-! DEFINITION. One step of the fetch-decode-execute unit (R91), and the placing of an instruction where the next step
fetches it. -/

namespace Sys2Proof.Machine

/-- Step() of R91: one whole instruction. A halted core, and a core with a fault recorded, executes nothing (R8, R31,
R32, R279): the step answers the same state (log entry 6). -/
def step (s : State) : Host.Outcome State Fault Refusal :=
  if s.halted || s.fault.isSome then .next s
  else
    match fetch s with
    | .instr i t => exec i t
    | .stopped t => .next t

/-- s with the instruction of a table word stored where the next step fetches, so that the next step runs it. It stands
for the host's load of a program (R275, R276, log entry 5). -/
def State.withFetchWord (s : State) (nbits w : Nat) : State := placeProgram (tableBytes nbits w) s

end Sys2Proof.Machine
end

