-- ==== Sys2Proof/Machine/Cartridge.lean ====
section
/-! DEFINITION. The cartridge image: parsing a buffer into the ROM record the platform is built with (R70 to R77). -/

namespace Sys2Proof.Machine

/-- The cells of a byte sequence from a key on, the unlisted byte left out. -/
def cellsFrom (k : Nat) : List Byte → Memory
  | [] => []
  | b :: rest => if b = Config.unlistedByte then cellsFrom (k + 1) rest else (k, b) :: cellsFrom (k + 1) rest

/-- The image of a byte sequence. -/
def Image.ofBytes (bytes : List Byte) : Image := { len := bytes.length, cells := cellsFrom 0 bytes }

/-- What parsing a buffer comes to (R75). -/
inductive Parsed where
  | noRom
  | rom (r : Rom)
  | refused (r : Refusal)
  deriving DecidableEq, Repr

/-- The header's first four bytes (R70). -/
def cartridgeMagic : List Byte := [0x4E, 0x45, 0x53, 0x1A]

/-- Bytes of the header (R70). -/
def headerLength : Nat := 16

/-- Bytes of the trainer that is skipped, when header byte 6 says there is one (R72, R74). -/
def trainerLength (byte6 : Byte) : Nat := if byte6.getLsbD 2 then 512 else 0

/-- The mapper number: high nibble from byte 7, low nibble from byte 6 (R72). -/
def mapperOf (byte6 byte7 : Byte) : Byte := (byte7 &&& 0xF0) ||| (byte6 >>> 4)

/-- The mirroring mode: the four-screen bit takes precedence (R73). -/
def mirroringOf (byte6 : Byte) : Mirroring :=
  if byte6.getLsbD 3 then .fourScreen else if byte6.getLsbD 0 then .vertical else .horizontal

/-- Parse a cartridge buffer (R70 to R75). A buffer that is empty, has another magic or another format version gives
no ROM; one shorter than its header declares is refused (D26, log entry 10). -/
def parseCartridge (buffer : List Byte) : Parsed :=
  if buffer.take 4 ≠ cartridgeMagic then .noRom
  else
    match buffer.drop 4 with
    | byte4 :: byte5 :: byte6 :: byte7 :: _ =>
      if (byte7 >>> 2) &&& 0x03 ≠ 0 then .noRom
      else
        let start := headerLength + trainerLength byte6
        let prgLen := byte4.toNat * Config.prgBank
        let chrLen := byte5.toNat * Config.chrPage
        if buffer.length < start + prgLen + chrLen then .refused .truncatedCartridge
        else
          .rom
            { prg := Image.ofBytes ((buffer.drop start).take prgLen)
              chr := Image.ofBytes ((buffer.drop (start + prgLen)).take chrLen)
              mapper := mapperOf byte6 byte7
              mirroring := mirroringOf byte6 }
    | _ => .refused .truncatedCartridge

/-- The ROM record the platform is built with: no ROM is the empty record (R76). -/
def platformRom (buffer : List Byte) : Except Refusal Rom :=
  match parseCartridge buffer with
  | .noRom => .ok Rom.empty
  | .rom r => .ok r
  | .refused r => .error r

end Sys2Proof.Machine
end

