-- ==== Sys2Proof/Machine/Session.lean ====
section
/-! DEFINITION. What the host can do to the core, and what it sees at the observation point (R8, R246, R252, R279). -/

namespace Sys2Proof.Machine

/-- The host's events, issued one at a time (R8, R246, R279). Observing changes nothing and stopping is no event. -/
inductive HostEvent where
  | reset
  | step
  | write (w : HostWrite)
  deriving DecidableEq, Repr

/-- The core's answer to one event (R8, R253, R270). -/
def hostEvent (e : HostEvent) (s : State) : Out :=
  match e with
  | .reset => .next (resetEvent s)
  | .step => step s
  | .write w => .next (hostWrite w s)

/-- The core's answer to a sequence of events (R279). -/
def session : List HostEvent → State → Out
  | [], s => .next s
  | e :: rest, s =>
    match hostEvent e s with
    | .next t => session rest t
    | .fault r => .fault r
    | .refused r => .refused r

/-- EA(mode) of R97 word for word, reading the operand bytes at PC, in the execute phase. None where there is no address
(R106). -/
def eaFromMemory (m : Mode) (s : State) : Option (Access Word) :=
  let byteAt := readByte s.pc s
  let wordAt := readWord s.pc s
  match m with
  | .immediate => some (.ok s.pc)
  | .zeroPage => some (byteAt.bind fun b => .ok (zext16 b))
  | .zeroPageX => some (byteAt.bind fun b => .ok (zext16 (b + s.x)))
  | .zeroPageY => some (byteAt.bind fun b => .ok (zext16 (b + s.y)))
  | .absolute => some wordAt
  | .absoluteX => some (wordAt.bind fun w => .ok (w + zext16 s.x))
  | .absoluteY => some (wordAt.bind fun w => .ok (w + zext16 s.y))
  | .indirectX => some (byteAt.bind fun b => .ok (zpWord (b + s.x) s))
  | .indirectY => some (byteAt.bind fun b => .ok (zpWord b s + zext16 s.y))
  | .indirect => some (wordAt.bind fun ptr => indirectTarget ptr s)
  | .noneAddressing => none
  | .relative => none

/-- What a tracer reconstructs at the observation point (R252); the register and flag snapshot is the state itself. -/
structure Trace where
  /-- The opcode and operand bytes the next step consumes. -/
  bytes : List Byte
  /-- The decoded effective address, for a mode with a memory operand. -/
  address : Option Word
  /-- The value at that address. -/
  value : Option Byte
  deriving DecidableEq, Repr

/-- The value of a read that did not fault. -/
def Access.toOption {α : Type} : Access α → Option α
  | .ok v => some v
  | .fault _ _ => none

/-- The trace of the next step, read through MemRead, with no effect on the state (R63, R252). -/
def traceOf (s : State) : Trace :=
  match fetch s with
  | .stopped _ => { bytes := (readByte s.pc s).toOption.toList, address := none, value := none }
  | .instr i t =>
    let address := (ea i.operand t).bind Access.toOption
    { bytes := encode i, address := address, value := address.bind fun addr => (readByte addr t).toOption }

end Sys2Proof.Machine
end

