-- ==== Sys2Proof/Safety.lean ====
section
/-! DEFINITION. What a run may count as, in the terms claims use: running, normal end, bad end, the invariant, frames,
and states a run passes through (R216, R240, R278). -/

namespace Sys2Proof.Machine

/-- The core takes a step: neither halted nor faulted (R91). -/
abbrev Running (s : State) : Prop := s.halted = false ∧ s.fault = none

/-- The end of a run: halted and no fault recorded (R278). -/
abbrev NormalEnd (s : State) : Prop := s.halted = true ∧ s.fault = none

/-- A bad end: a fault recorded; it refutes a claim of normal termination (R240, R278). -/
abbrev BadEnd (s : State) : Prop := s.fault ≠ none

/-- RAM is in canonical form and holds physical indices only (R55). -/
abbrev RamWf (s : State) : Prop := s.ram.wf = true ∧ s.ram.below Config.ramSize = true

/-- The invariant every step keeps: canonical memory and images, U reads 1 (R27), and a halted core is one that ran
BRK: no fault, IR = 0x00, B = 1 (R246, R278). -/
abbrev Inv (s : State) : Prop :=
  RamWf s ∧ s.rom.prg.wf = true ∧ s.rom.chr.wf = true ∧ getFlag .u s.p = true ∧
    (s.halted = true → s.fault = none ∧ s.ir = 0x00 ∧ getFlag .b s.p = true)

/-- Every byte of the address space reads the same in both states. -/
def SameMemory (s t : State) : Prop := ∀ addr : Word, readByte addr t = readByte addr s

/-- Every flag outside the list has the same value in both states. -/
def KeepsFlags (written : List Flag) (s t : State) : Prop := ∀ f : Flag, f ∉ written → getFlag f t.p = getFlag f s.p

/-- Two addresses that are the same physical byte of RAM (R55). -/
abbrev SameCell (addr other : Word) : Prop :=
  inRam addr = true ∧ inRam other = true ∧ ramIndex addr = ramIndex other

/-- The operand byte of the instruction is m (R98). -/
abbrev OperandIs (i : Instr) (s : State) (m : Byte) : Prop := operandByte i.operand s = some (.ok m)

/-- The effective address of the instruction is addr (R97). -/
abbrev AddressIs (i : Instr) (s : State) (addr : Word) : Prop := ea i.operand s = some (.ok addr)

/-- PC after an instruction that does not set it: the execute phase's PC plus the length less one (R93). -/
def pcAfter (i : Instr) (s : State) : Word := s.pc + BitVec.ofNat 16 (i.length - 1)

/-- Z and N are those of the result r (R35). -/
abbrev ZnOf (r : Byte) (t : State) : Prop :=
  getFlag .z t.p = decide (r = 0) ∧ getFlag .n t.p = decide (128 ≤ r.toNat)

/-- In t every byte reads as in s, but for the physical byte of addr, which holds v when addr lies in RAM (R53, R55). -/
def StoresByte (addr : Word) (v : Byte) (s t : State) : Prop :=
  ∀ other : Word, readByte other t = if SameCell addr other then .ok v else readByte other s

/-- The result r of shifting or rotating v under the carry of s, and the flags of t: the result as a number, C the bit
shifted out, Z and N of the result, every other flag kept (R130 to R133). -/
def ShiftsTo (m : Mnemonic) (v r : Byte) (s t : State) : Prop :=
  (m = .asl → r.toNat = 2 * v.toNat % 256) ∧
  (m = .lsr → r.toNat = v.toNat / 2) ∧
  (m = .rol → r.toNat = (2 * v.toNat + (getFlag .c s.p).toNat) % 256) ∧
  (m = .ror → r.toNat = v.toNat / 2 + 128 * (getFlag .c s.p).toNat) ∧
  (m = .asl ∨ m = .rol → getFlag .c t.p = decide (128 ≤ v.toNat)) ∧
  (m = .lsr ∨ m = .ror → getFlag .c t.p = decide (v.toNat % 2 = 1)) ∧
  ZnOf r t ∧ KeepsFlags [.c, .z, .n] s t

/-- A byte read as a two's-complement number (R122). -/
def signed (b : Byte) : Int := (b.toNat : Int) - 256 * (b.getLsbD 7).toNat

/-- The state t is reached from s by some number of steps. -/
def Reaches (s t : State) : Prop := ∃ k : Nat, Host.Core.run Sys2Proof.core k s = .next t

/-- Opcode bytes without a descriptor, 0x02 to 0x57 (R110). -/
def undefinedOpcodesA : List Byte :=
  [0x02, 0x03, 0x04, 0x07, 0x0B, 0x0C, 0x0F, 0x12, 0x13, 0x14, 0x17, 0x1A, 0x1B, 0x1C, 0x1F, 0x22, 0x23, 0x27, 0x2B,
    0x2F, 0x32, 0x33, 0x34, 0x37, 0x3A, 0x3B, 0x3C, 0x3F, 0x42, 0x43, 0x44, 0x47, 0x4B, 0x4F, 0x52, 0x53, 0x54, 0x57]

/-- Opcode bytes without a descriptor, 0x5A to 0xB3 (R110). -/
def undefinedOpcodesB : List Byte :=
  [0x5A, 0x5B, 0x5C, 0x5F, 0x62, 0x63, 0x64, 0x67, 0x6B, 0x6F, 0x72, 0x73, 0x74, 0x77, 0x7A, 0x7B, 0x7C, 0x7F, 0x80,
    0x82, 0x83, 0x87, 0x89, 0x8B, 0x8F, 0x92, 0x93, 0x97, 0x9B, 0x9C, 0x9E, 0x9F, 0xA3, 0xA7, 0xAB, 0xAF, 0xB2, 0xB3]

/-- Opcode bytes without a descriptor, 0xB7 to 0xFF (R110). -/
def undefinedOpcodesC : List Byte :=
  [0xB7, 0xBB, 0xBF, 0xC2, 0xC3, 0xC7, 0xCB, 0xCF, 0xD2, 0xD3, 0xD4, 0xD7, 0xDA, 0xDB, 0xDC, 0xDF, 0xE2, 0xE3, 0xE7,
    0xEB, 0xEF, 0xF2, 0xF3, 0xF4, 0xF7, 0xFA, 0xFB, 0xFC, 0xFF]

/-- The 105 opcode bytes without a descriptor, as R110 lists them. -/
def undefinedOpcodes : List Byte := undefinedOpcodesA ++ undefinedOpcodesB ++ undefinedOpcodesC

end Sys2Proof.Machine
end

