-- ==== Sys2Proof/Certificates/Slice0/Obligations.lean ====
section
/-! DEFINITION. The statements for the provers, in the order of spec/: encoding, addressing, memory, state, the
instruction families, faults, reset, the whole machine. In a statement about exec the state s is that of the execute
phase: PC holds the address of the first operand byte (R25). -/

open Sys2Proof Sys2Proof.Machine

/-! ### Encoding, fetch and decode -/

/-- R90, R95, R108, R112: the decoder gives back every instruction the encoder writes, every operand value, and leaves
the bytes after it. -/
def Obligations.DecodeInvertsEncode : Prop :=
  ∀ (i : Instr) (rest : List Byte), decode (encode i ++ rest) = .ok (i, rest)

/-- R90, R92: no byte sequence decodes to an instruction but that instruction's own encoding. -/
def Obligations.EncodeInvertsDecode : Prop :=
  ∀ (bytes rest : List Byte) (i : Instr), decode bytes = .ok (i, rest) → bytes = encode i ++ rest

/-- R108, R113: words written out from the opcode map and the assembler examples: two each of five families, three of
45_control and one of 46_flag_nop, with lengths 1, 2 and 3. -/
def Obligations.WordsOfTheSpecDecode : Prop :=
  decode [0x69, 0x01] = .ok (.adcImm 0x01, []) ∧ decode [0xF9, 0xFF, 0x02] = .ok (.sbcAbsY 0x02FF, []) ∧
  decode [0x0A] = .ok (.aslA, []) ∧ decode [0x7E, 0x00, 0x02] = .ok (.rorAbsX 0x0200, []) ∧
  decode [0xD1, 0x20] = .ok (.cmpIndY 0x20, []) ∧ decode [0xE8] = .ok (.inx, []) ∧
  decode [0xB6, 0x10] = .ok (.ldxZpY 0x10, []) ∧ decode [0x9D, 0x00, 0x02] = .ok (.staAbsX 0x0200, []) ∧
  decode [0xAA] = .ok (.tax, []) ∧ decode [0x28] = .ok (.plp, []) ∧
  decode [0x6C, 0xFF, 0x02] = .ok (.jmpInd 0x02FF, []) ∧ decode [0xD0, 0xFB] = .ok (.bne 0xFB, []) ∧
  decode [0x00] = .ok (.brk, []) ∧ decode [0xF8] = .ok (.sed, [])

/-- R110, R241: a byte has no descriptor exactly when R110 lists it, and a step that fetches one takes IllegalOpcode,
with PC = pc0 + 1, IR holding the byte and nothing else changed. -/
def Obligations.UndefinedOpcodesFault : Prop :=
  undefinedOpcodes.length = 105 ∧
  (∀ op : Byte, descriptor op = none ↔ op ∈ undefinedOpcodes) ∧
  ∀ (s : State) (op : Byte), Running s → readByte s.pc s = .ok op → op ∈ undefinedOpcodes →
    step s = .next
      { s with
        pc := s.pc + 1, ir := op,
        fault := some { kind := .illegalOpcode, pc := s.pc, ir := op, addr := s.pc } }

/-- R91, R92, R95: when the bytes at PC are those of an instruction, the step is its meaning in the execute phase: IR
holds the opcode byte and PC the address of the first operand byte. The bytes are as many as the instruction's length,
at addresses that wrap at 0xFFFF; the decoder reads them to that instruction (DecodeInvertsEncode). -/
def Obligations.StepRunsDecodedInstruction : Prop :=
  ∀ (s : State) (i : Instr), Running s →
    (∀ (k : Nat) (h : k < (encode i).length), readByte (s.pc + BitVec.ofNat 16 k) s = .ok ((encode i)[k])) →
    step s = exec i { s with ir := i.opcode, pc := s.pc + 1 }

/-- R240, R242, R246: an opcode fetch past the PRG image faults with IR and PC as they were. -/
def Obligations.OpcodeFetchFaults : Prop :=
  ∀ (s : State) (k : Fault) (addr : Word), Running s → readByte s.pc s = .fault k addr →
    step s = .next { s with fault := some { kind := .prgOutOfRange, pc := s.pc, ir := s.ir, addr := s.pc } }

/-- R240, R242: an operand read past the PRG image faults, for every instruction but JSR, with PC = pc0 + 1, IR
holding the opcode byte and nothing else changed; JSR has pushed its return address first (R202: the order of its
rule). -/
def Obligations.OperandFetchFaults : Prop :=
  ∀ (s : State) (op : Byte) (row : Row) (k : Fault) (addr : Word), Running s → readByte s.pc s = .ok op →
    descriptor op = some row →
    fetchOperand row.template { s with ir := op, pc := s.pc + 1 } = .fault k addr →
    (op ≠ 0x20 →
      step s = .next
        { s with
          pc := s.pc + 1, ir := op, fault := some { kind := .prgOutOfRange, pc := s.pc, ir := op, addr := addr } }) ∧
    (op = 0x20 → jsrOverlap { s with ir := op, pc := s.pc + 1 } = none →
      step s = .next
        { pushWord (s.pc + 2) s with
          pc := s.pc + 1, ir := op, fault := some { kind := .prgOutOfRange, pc := s.pc, ir := op, addr := addr } })

/-- R67: a store to the next instruction's byte is what the next step executes. -/
def Obligations.FetchSeesStores : Prop :=
  ∀ (s : State) (i : Instr), Running s → RamWf s → inRam s.pc = true → i.length = 1 →
    step (writeByte s.pc i.opcode s) = exec i { writeByte s.pc i.opcode s with ir := i.opcode, pc := s.pc + 1 }

/-- The model's own load (log entry 5): after withFetchWord the next step runs the instruction the decoder reads from
the word, from every state with canonical RAM and PRG image. -/
def Obligations.PlacedWordRunsNext : Prop :=
  ∀ (s : State) (nbits w : Nat) (i : Instr), RamWf s → s.rom.prg.wf = true → decodeTableWord nbits w = some i →
    ∃ t, step (s.withFetchWord nbits w) = exec i t ∧
      t = { s.withFetchWord nbits w with ir := i.opcode, pc := (s.withFetchWord nbits w).pc + 1 }

/-! ### Addressing -/

/-- R97, R98: the effective address and the operand byte the decoded operand gives are those the resolver of R97 and
R98 gives when it reads the operand bytes from memory. -/
def Obligations.ResolverReadsOperandsFromMemory : Prop :=
  ∀ (s t : State) (i : Instr), fetch s = .instr i t →
    ea i.operand t = eaFromMemory i.mode t ∧
    operandByte i.operand t = (eaFromMemory i.mode t).map fun r => r.bind fun addr => readByte addr t

/-- R99 to R104: each mode's effective address as a number: zero-page wrap, 16-bit wrap, pointers that stay in page 0,
and the page bug of the JMP pointer. -/
def Obligations.EffectiveAddressesAsNumbers : Prop :=
  ∀ (s : State) (zp : Byte) (w : Word),
    ea (.immediate zp) s = some (.ok s.pc) ∧ operandByte (.immediate zp) s = some (.ok zp) ∧
    ea (.zeroPage zp) s = some (.ok (BitVec.ofNat 16 zp.toNat)) ∧
    ea (.zeroPageX zp) s = some (.ok (BitVec.ofNat 16 ((zp.toNat + s.x.toNat) % 256))) ∧
    ea (.zeroPageY zp) s = some (.ok (BitVec.ofNat 16 ((zp.toNat + s.y.toNat) % 256))) ∧
    ea (.absolute w) s = some (.ok w) ∧
    ea (.absoluteX w) s = some (.ok (BitVec.ofNat 16 ((w.toNat + s.x.toNat) % 65536))) ∧
    ea (.absoluteY w) s = some (.ok (BitVec.ofNat 16 ((w.toNat + s.y.toNat) % 65536))) ∧
    ea (.indirectX zp) s =
      some (.ok (BitVec.ofNat 16
        ((s.ram.read ((zp.toNat + s.x.toNat + 1) % 256)).toNat * 256 + (s.ram.read ((zp.toNat + s.x.toNat) % 256)).toNat))) ∧
    ea (.indirectY zp) s =
      some (.ok (BitVec.ofNat 16
        (((s.ram.read ((zp.toNat + 1) % 256)).toNat * 256 + (s.ram.read zp.toNat).toNat + s.y.toNat) % 65536))) ∧
    ∀ lo hi : Byte, readByte w s = .ok lo →
      readByte (BitVec.ofNat 16 (if w.toNat % 256 = 255 then w.toNat - 255 else w.toNat + 1)) s = .ok hi →
      ea (.indirect w) s = some (.ok (BitVec.ofNat 16 (hi.toNat * 256 + lo.toNat)))

/-- R106: asking for the effective address of NoneAddressing is refused, and no instruction asks, whatever the state.
-/
def Obligations.NoInstructionAsksForANoneAddress : Prop :=
  (∀ (s : State) (k : Word → Out), withEA .none s k = .refused .noEffectiveAddress) ∧
  ∀ (i : Instr) (s : State) (r : Refusal), exec i s ≠ .refused r

/-! ### Memory -/

/-- R52, R55: each of the four addresses of a physical RAM byte reads that byte. -/
def Obligations.RamIsMirroredFourTimes : Prop :=
  ∀ (s : State) (k n : Nat), k < 0x0800 → n < 4 → readByte (BitVec.ofNat 16 (k + n * 0x0800)) s = .ok (s.ram.read k)

/-- R52, R53, R55 to R58, each in part: after a store in RAM every address reads as before, but the mirrors of the
stored byte (R55), which read the byte stored, and no register changes; a write above 0x1FFF has no effect at all
(R53, R56 to R58), and 0x2000 to 0x7FFF read 0 (R52, R56, R57). RAM is in canonical form (StepKeepsInvariant keeps it
so). -/
def Obligations.StoresReachRamOnly : Prop :=
  ∀ (s : State) (addr : Word) (v : Byte),
    (RamWf s →
      writeByte addr v s = { s with ram := (writeByte addr v s).ram } ∧ StoresByte addr v s (writeByte addr v s)) ∧
    (0x1FFF < addr.toNat → writeByte addr v s = s ∧ (addr.toNat ≤ 0x7FFF → readByte addr s = .ok 0x00))

/-- R52, R54, R242: the PRG window. A 16 KiB image appears in both halves; with any other length an address reads the
byte at its offset, or faults for its own address when the offset lies past the image. -/
def Obligations.PrgWindowReads : Prop :=
  ∀ (s : State) (addr : Word), 0x8000 ≤ addr.toNat →
    (s.rom.prg.len = 0x4000 →
      readByte addr s = .ok (s.rom.prg.cells.read ((addr.toNat - 0x8000) % 0x4000)) ∧
      (addr.toNat ≤ 0xBFFF → readByte (addr + 0x4000) s = readByte addr s)) ∧
    (s.rom.prg.len ≠ 0x4000 →
      readByte addr s =
        if addr.toNat - 0x8000 < s.rom.prg.len then .ok (s.rom.prg.cells.read (addr.toNat - 0x8000))
        else .fault .prgOutOfRange addr)

/-- R60, R61: a word access is two byte accesses, little-endian, the second address modulo 65536: the word read, the
fault of the first read that faults, and the word stored. -/
def Obligations.WordAccessesAreTwoByteAccesses : Prop :=
  ∀ (s : State) (addr : Word),
    let second : Word := BitVec.ofNat 16 ((addr.toNat + 1) % 65536)
    (∀ lo hi : Byte, readByte addr s = .ok lo → readByte second s = .ok hi →
      readWord addr s = .ok (BitVec.ofNat 16 (hi.toNat * 256 + lo.toNat))) ∧
    (∀ (k : Fault) (a : Word),
      readByte addr s = .fault k a ∨ (∃ lo, readByte addr s = .ok lo) ∧ readByte second s = .fault k a →
      readWord addr s = .fault k a) ∧
    ∀ w : Word, writeWord addr w s =
      writeByte second (BitVec.ofNat 8 (w.toNat / 256)) (writeByte addr (BitVec.ofNat 8 (w.toNat % 256)) s)

/-! ### The status register and the stack -/

/-- R35: SetZN writes Z and N from the result, whatever they were, and no other flag. -/
def Obligations.SetZnWritesZAndNOnly : Prop :=
  ∀ (r p : Byte),
    getFlag .z (setZN r p) = decide (r.toNat = 0) ∧ getFlag .n (setZN r p) = decide (128 ≤ r.toNat) ∧
    ∀ f : Flag, f ≠ .z → f ≠ .n → getFlag f (setZN r p) = getFlag f p

/-- R40, R41, R43: a push writes the byte at 0x0100 + SP, then decrements SP; a pull increments SP, then reads the
byte at the new address. Both wrap in page 1. A pull after a push gives the byte and SP back. -/
def Obligations.PushAndPullWrapInPageOne : Prop :=
  ∀ (s : State) (v : Byte), RamWf s →
    (push v s = { s with sp := (push v s).sp, ram := (push v s).ram } ∧
      (push v s).sp.toNat = (s.sp.toNat + 255) % 256 ∧
      StoresByte (BitVec.ofNat 16 (0x0100 + s.sp.toNat)) v s (push v s)) ∧
    (pullSp s = { s with sp := (pullSp s).sp } ∧ (pullSp s).sp.toNat = (s.sp.toNat + 1) % 256 ∧
      readByte (BitVec.ofNat 16 (0x0100 + (s.sp.toNat + 1) % 256)) s = .ok (pullByte s)) ∧
    pullByte (push v s) = v ∧ (pullSp (push v s)).sp = s.sp

/-! ### Add and subtract -/

/-- R120: ADC in its eight forms: opcode, sum, the four flags, and what stays. -/
def Obligations.AdcAddsWithCarry : Prop :=
  ∀ (i : Instr) (s : State), i.mnemonic = .adc →
    (i.mnemonic, i.mode, i.opcode) ∈
      [(.adc, .immediate, 0x69), (.adc, .zeroPage, 0x65), (.adc, .zeroPageX, 0x75),
        (.adc, .absolute, 0x6D), (.adc, .absoluteX, 0x7D), (.adc, .absoluteY, 0x79),
        (.adc, .indirectX, 0x61), (.adc, .indirectY, 0x71)] ∧
    (∀ m : Byte, OperandIs i s m →
      ∃ t, exec i s = .next t ∧ t = { s with a := t.a, p := t.p, pc := pcAfter i s } ∧
        t.a.toNat = (s.a.toNat + m.toNat + (getFlag .c s.p).toNat) % 256 ∧
        getFlag .c t.p = decide (s.a.toNat + m.toNat + (getFlag .c s.p).toNat > 0xFF) ∧
        getFlag .v t.p = decide (~~~(s.a ^^^ m) &&& (s.a ^^^ t.a) &&& 0x80 ≠ 0) ∧
        ZnOf t.a t ∧ KeepsFlags [.c, .v, .z, .n] s t ∧ SameMemory s t)

/-- R121: SBC in its eight forms: opcode, difference, the four flags, and what stays. -/
def Obligations.SbcSubtractsWithBorrow : Prop :=
  ∀ (i : Instr) (s : State), i.mnemonic = .sbc →
    (i.mnemonic, i.mode, i.opcode) ∈
      [(.sbc, .immediate, 0xE9), (.sbc, .zeroPage, 0xE5), (.sbc, .zeroPageX, 0xF5),
        (.sbc, .absolute, 0xED), (.sbc, .absoluteX, 0xFD), (.sbc, .absoluteY, 0xF9),
        (.sbc, .indirectX, 0xE1), (.sbc, .indirectY, 0xF1)] ∧
    (∀ m : Byte, OperandIs i s m →
      ∃ t, exec i s = .next t ∧ t = { s with a := t.a, p := t.p, pc := pcAfter i s } ∧
        (t.a.toNat : Int) = ((s.a.toNat : Int) - m.toNat - (1 - (getFlag .c s.p).toNat)) % 256 ∧
        getFlag .c t.p = decide ((s.a.toNat : Int) - m.toNat - (1 - (getFlag .c s.p).toNat) ≥ 0) ∧
        getFlag .v t.p = decide ((s.a ^^^ m) &&& (s.a ^^^ t.a) &&& 0x80 ≠ 0) ∧
        ZnOf t.a t ∧ KeepsFlags [.c, .v, .z, .n] s t ∧ SameMemory s t)

/-- R122 items 2 and 3: the signed and unsigned readings of C, V and the result of the adder and the subtracter. -/
def Obligations.AdderReadsSignedAndUnsigned : Prop :=
  ∀ (s : State) (m : Byte),
    let c := (getFlag .c s.p).toNat
    let sum := signed s.a + signed m + c
    let diff := signed s.a - signed m - (1 - c)
    (getFlag .c (adc m s).p = true ↔ 256 ≤ s.a.toNat + m.toNat + c) ∧
    (getFlag .v (adc m s).p = true ↔ sum < -128 ∨ 127 < sum) ∧
    ((adc m s).a.toNat : Int) = sum % 256 ∧
    (getFlag .c (sbc m s).p = true ↔ m.toNat + (1 - c) ≤ s.a.toNat) ∧
    (getFlag .v (sbc m s).p = true ↔ diff < -128 ∨ 127 < diff) ∧
    ((sbc m s).a.toNat : Int) = diff % 256

/-- R122 item 4: SBC of m is ADC of the complement of m, in A and in every flag. -/
def Obligations.SbcIsAdcOfTheComplement : Prop := ∀ (s : State) (m : Byte), sbc m s = adc (~~~m) s

/-- R122 item 5: SBC of the same operand undoes ADC when its carry is the complement of ADC's carry-in, and with the
carry ADC left exactly when that carry is the complement (C1: not in every case). -/
def Obligations.SbcUndoesAdc : Prop :=
  ∀ (s : State) (m : Byte),
    (sbc m (setFlag .c (!getFlag .c s.p) (adc m s))).a = s.a ∧
    ((sbc m (adc m s)).a = s.a ↔ getFlag .c (adc m s).p = !getFlag .c s.p)

/-- R123: ADC and SBC do with D set what they do with D clear, but that D keeps its value. -/
def Obligations.DecimalFlagChangesNoArithmetic : Prop :=
  ∀ (i : Instr) (s t : State) (d : Bool), i.mnemonic = .adc ∨ i.mnemonic = .sbc → exec i s = .next t →
    exec i (setFlag .d d s) = .next (setFlag .d d t)

/-! ### Shifts and rotates -/

/-- R130 to R134: opcode; the accumulator form shifts A and touches no memory; a memory form reads one byte at EA and
writes its shift back to the same EA, A and every other register kept. The result as a number, the bit shifted out in
C, Z and N, V and the other flags kept. Outside RAM the write has no effect. -/
def Obligations.ShiftsAndRotates : Prop :=
  ∀ (i : Instr) (s : State), i.mnemonic ∈ [.asl, .lsr, .rol, .ror] →
    (i.mnemonic, i.mode, i.opcode) ∈
      [(.asl, .zeroPage, 0x06), (.asl, .zeroPageX, 0x16), (.asl, .absolute, 0x0E),
        (.asl, .absoluteX, 0x1E), (.asl, .noneAddressing, 0x0A), (.lsr, .zeroPage, 0x46),
        (.lsr, .zeroPageX, 0x56), (.lsr, .absolute, 0x4E), (.lsr, .absoluteX, 0x5E),
        (.lsr, .noneAddressing, 0x4A), (.rol, .zeroPage, 0x26), (.rol, .zeroPageX, 0x36),
        (.rol, .absolute, 0x2E), (.rol, .absoluteX, 0x3E), (.rol, .noneAddressing, 0x2A),
        (.ror, .zeroPage, 0x66), (.ror, .zeroPageX, 0x76), (.ror, .absolute, 0x6E),
        (.ror, .absoluteX, 0x7E), (.ror, .noneAddressing, 0x6A)] ∧
    (i.mode = .noneAddressing →
      ∃ t, exec i s = .next t ∧ t = { s with a := t.a, p := t.p } ∧ ShiftsTo i.mnemonic s.a t.a s t ∧
        SameMemory s t) ∧
    (i.mode ≠ .noneAddressing → RamWf s →
      ∀ (addr : Word) (v : Byte), AddressIs i s addr → readByte addr s = .ok v →
        ∃ (t : State) (r : Byte), exec i s = .next t ∧ t = { s with p := t.p, ram := t.ram, pc := pcAfter i s } ∧
          ShiftsTo i.mnemonic v r s t ∧ StoresByte addr r s t)

/-! ### Compare, increment, decrement -/

/-- R140 to R143: opcode, C from the unsigned comparison, Z and N from the wrapped difference; only P and PC change.
-/
def Obligations.ComparesSetFlagsOnly : Prop :=
  ∀ (i : Instr) (s : State), i.mnemonic ∈ [.cmp, .cpx, .cpy] →
    (i.mnemonic, i.mode, i.opcode) ∈
      [(.cmp, .immediate, 0xC9), (.cmp, .zeroPage, 0xC5), (.cmp, .zeroPageX, 0xD5),
        (.cmp, .absolute, 0xCD), (.cmp, .absoluteX, 0xDD), (.cmp, .absoluteY, 0xD9),
        (.cmp, .indirectX, 0xC1), (.cmp, .indirectY, 0xD1), (.cpx, .immediate, 0xE0),
        (.cpx, .zeroPage, 0xE4), (.cpx, .absolute, 0xEC), (.cpy, .immediate, 0xC0),
        (.cpy, .zeroPage, 0xC4), (.cpy, .absolute, 0xCC)] ∧
    (∀ m : Byte, OperandIs i s m →
      let reg := if i.mnemonic = .cmp then s.a else if i.mnemonic = .cpx then s.x else s.y
      ∃ t, exec i s = .next t ∧ t = { s with p := t.p, pc := pcAfter i s } ∧
        getFlag .c t.p = decide (m.toNat ≤ reg.toNat) ∧
        getFlag .z t.p = decide (reg = m) ∧
        getFlag .n t.p = decide (128 ≤ (reg.toNat + 256 - m.toNat) % 256) ∧
        KeepsFlags [.c, .z, .n] s t ∧ SameMemory s t)

/-- R144, R145: INC and DEC of a memory byte: opcode, the byte modulo 256 written back to the same EA, Z and N only -/
def Obligations.IncDecOfMemory : Prop :=
  ∀ (i : Instr) (s : State), i.mnemonic ∈ [.inc, .dec] → RamWf s →
    (i.mnemonic, i.mode, i.opcode) ∈
      [(.inc, .zeroPage, 0xE6), (.inc, .zeroPageX, 0xF6), (.inc, .absolute, 0xEE),
        (.inc, .absoluteX, 0xFE), (.dec, .zeroPage, 0xC6), (.dec, .zeroPageX, 0xD6),
        (.dec, .absolute, 0xCE), (.dec, .absoluteX, 0xDE)] ∧
    (∀ (addr : Word) (v : Byte), AddressIs i s addr → readByte addr s = .ok v →
      ∃ (t : State) (r : Byte), exec i s = .next t ∧ t = { s with p := t.p, ram := t.ram, pc := pcAfter i s } ∧
        r.toNat = (v.toNat + (if i.mnemonic = .inc then 1 else 255)) % 256 ∧
        ZnOf r t ∧ KeepsFlags [.z, .n] s t ∧ StoresByte addr r s t)

/-- R146 to R149: INX, INY, DEX, DEY: opcode, the register modulo 256, Z and N only. -/
def Obligations.IncDecOfIndexRegisters : Prop :=
  ∀ (i : Instr) (s : State), i.mnemonic ∈ [.inx, .iny, .dex, .dey] →
    (i.mnemonic, i.opcode) ∈ [(.inx, 0xE8), (.iny, 0xC8), (.dex, 0xCA), (.dey, 0x88)] ∧ i.length = 1 ∧
    ∃ t, exec i s = .next t ∧
      ((i.mnemonic = .inx ∨ i.mnemonic = .dex) →
        t = { s with x := t.x, p := t.p } ∧ ZnOf t.x t ∧
        t.x.toNat = (s.x.toNat + (if i.mnemonic = .inx then 1 else 255)) % 256) ∧
      ((i.mnemonic = .iny ∨ i.mnemonic = .dey) →
        t = { s with y := t.y, p := t.p } ∧ ZnOf t.y t ∧
        t.y.toNat = (s.y.toNat + (if i.mnemonic = .iny then 1 else 255)) % 256) ∧
      KeepsFlags [.z, .n] s t ∧ SameMemory s t

/-! ### Logic, loads and stores -/

/-- R160 to R162: AND, ORA, EOR: opcode, A bit by bit, Z and N only. -/
def Obligations.LogicOnTheAccumulator : Prop :=
  ∀ (i : Instr) (s : State), i.mnemonic ∈ [.and, .ora, .eor] →
    (i.mnemonic, i.mode, i.opcode) ∈
      [(.and, .immediate, 0x29), (.and, .zeroPage, 0x25), (.and, .zeroPageX, 0x35),
        (.and, .absolute, 0x2D), (.and, .absoluteX, 0x3D), (.and, .absoluteY, 0x39),
        (.and, .indirectX, 0x21), (.and, .indirectY, 0x31), (.ora, .immediate, 0x09),
        (.ora, .zeroPage, 0x05), (.ora, .zeroPageX, 0x15), (.ora, .absolute, 0x0D),
        (.ora, .absoluteX, 0x1D), (.ora, .absoluteY, 0x19), (.ora, .indirectX, 0x01),
        (.ora, .indirectY, 0x11), (.eor, .immediate, 0x49), (.eor, .zeroPage, 0x45),
        (.eor, .zeroPageX, 0x55), (.eor, .absolute, 0x4D), (.eor, .absoluteX, 0x5D),
        (.eor, .absoluteY, 0x59), (.eor, .indirectX, 0x41), (.eor, .indirectY, 0x51)] ∧
    (∀ m : Byte, OperandIs i s m →
      ∃ t, exec i s = .next t ∧ t = { s with a := t.a, p := t.p, pc := pcAfter i s } ∧
        (∀ k : Nat, k < 8 →
          t.a.getLsbD k =
            if i.mnemonic = .and then (s.a.getLsbD k && m.getLsbD k)
            else if i.mnemonic = .ora then (s.a.getLsbD k || m.getLsbD k)
            else (s.a.getLsbD k != m.getLsbD k)) ∧
        ZnOf t.a t ∧ KeepsFlags [.z, .n] s t ∧ SameMemory s t)

/-- R163: BIT: opcode, Z from A and the operand, N and V from the operand's bits 7 and 6; A and the rest are kept. -/
def Obligations.BitTestsWithoutWriting : Prop :=
  ∀ (i : Instr) (s : State), i.mnemonic = .bit →
    (i.mnemonic, i.mode, i.opcode) ∈
      [(.bit, .zeroPage, 0x24), (.bit, .absolute, 0x2C)] ∧
    (∀ m : Byte, OperandIs i s m →
      ∃ t, exec i s = .next t ∧ t = { s with p := t.p, pc := pcAfter i s } ∧
        getFlag .z t.p = decide (s.a &&& m = 0) ∧ getFlag .n t.p = m.getLsbD 7 ∧ getFlag .v t.p = m.getLsbD 6 ∧
        KeepsFlags [.z, .n, .v] s t ∧ SameMemory s t)

/-- R164 to R166: LDA, LDX, LDY: opcode, the register written with the operand byte, Z and N only. -/
def Obligations.LoadsWriteTheirRegister : Prop :=
  ∀ (i : Instr) (s : State), i.mnemonic ∈ [.lda, .ldx, .ldy] →
    (i.mnemonic, i.mode, i.opcode) ∈
      [(.lda, .immediate, 0xA9), (.lda, .zeroPage, 0xA5), (.lda, .zeroPageX, 0xB5),
        (.lda, .absolute, 0xAD), (.lda, .absoluteX, 0xBD), (.lda, .absoluteY, 0xB9),
        (.lda, .indirectX, 0xA1), (.lda, .indirectY, 0xB1), (.ldx, .immediate, 0xA2),
        (.ldx, .zeroPage, 0xA6), (.ldx, .zeroPageY, 0xB6), (.ldx, .absolute, 0xAE),
        (.ldx, .absoluteY, 0xBE), (.ldy, .immediate, 0xA0), (.ldy, .zeroPage, 0xA4),
        (.ldy, .zeroPageX, 0xB4), (.ldy, .absolute, 0xAC), (.ldy, .absoluteX, 0xBC)] ∧
    (∀ m : Byte, OperandIs i s m →
      ∃ t, exec i s = .next t ∧
        t = { s with
              a := if i.mnemonic = .lda then m else s.a
              x := if i.mnemonic = .ldx then m else s.x
              y := if i.mnemonic = .ldy then m else s.y
              p := t.p
              pc := pcAfter i s } ∧
        ZnOf m t ∧ KeepsFlags [.z, .n] s t ∧ SameMemory s t)

/-- R167 to R169: STA, STX, STY: opcode; every form has an effective address once its operand bytes are read, and the
register's byte is stored there; no register and no flag changes, and no store faults. -/
def Obligations.StoresWriteTheirRegister : Prop :=
  ∀ (i : Instr) (s : State), i.mnemonic ∈ [.sta, .stx, .sty] → RamWf s →
    (i.mnemonic, i.mode, i.opcode) ∈
      [(.sta, .zeroPage, 0x85), (.sta, .zeroPageX, 0x95), (.sta, .absolute, 0x8D),
        (.sta, .absoluteX, 0x9D), (.sta, .absoluteY, 0x99), (.sta, .indirectX, 0x81),
        (.sta, .indirectY, 0x91), (.stx, .zeroPage, 0x86), (.stx, .zeroPageY, 0x96),
        (.stx, .absolute, 0x8E), (.sty, .zeroPage, 0x84), (.sty, .zeroPageX, 0x94),
        (.sty, .absolute, 0x8C)] ∧
    (∃ addr : Word, AddressIs i s addr) ∧
    ∀ addr : Word, AddressIs i s addr →
      ∃ t, exec i s = .next t ∧ t = { s with ram := t.ram, pc := pcAfter i s } ∧
        StoresByte addr (if i.mnemonic = .sta then s.a else if i.mnemonic = .stx then s.x else s.y) s t

/-- R52, R240, R242: an instruction whose read of its memory operand runs past the PRG image takes the fault for that
address, and so does JMP indirect for the first of its two pointer reads that does; nothing else changes: no register,
no flag, no byte, no advance. -/
def Obligations.DataReadFaults : Prop :=
  ∀ (s : State) (k : Fault) (addr : Word),
    let faulted : State :=
      { s with fault := some { kind := .prgOutOfRange, pc := s.pc - 1, ir := s.ir, addr := addr } }
    (∀ i : Instr,
      i.mnemonic ∈
        [.adc, .sbc, .asl, .lsr, .rol, .ror, .cmp, .cpx, .cpy, .inc, .dec, .and, .ora, .eor, .bit, .lda, .ldx,
          .ldy] →
      operandByte i.operand s = some (.fault k addr) → AddressIs i s addr ∧ exec i s = .next faulted) ∧
    ∀ ptr : Word,
      let high : Word := BitVec.ofNat 16 (if ptr.toNat % 256 = 255 then ptr.toNat - 255 else ptr.toNat + 1)
      readByte ptr s = .fault k addr ∨ (∃ lo, readByte ptr s = .ok lo) ∧ readByte high s = .fault k addr →
      exec (.jmpInd ptr) s = .next faulted

/-! ### Transfers and stack -/

/-- R180 to R185: a transfer writes its destination with its source, and Z and N only; TXS writes SP and no flag. -/
def Obligations.TransfersCopyTheirSource : Prop :=
  ∀ s : State,
    [Instr.tax.opcode, Instr.tay.opcode, Instr.txa.opcode, Instr.tya.opcode, Instr.tsx.opcode, Instr.txs.opcode] =
      [0xAA, 0xA8, 0x8A, 0x98, 0xBA, 0x9A] ∧
    (∀ i ∈ [Instr.tax, .tay, .txa, .tya, .tsx, .txs], i.length = 1) ∧
    (∃ t, exec .tax s = .next t ∧ t = { s with x := s.a, p := t.p } ∧ ZnOf s.a t ∧ KeepsFlags [.z, .n] s t ∧
      SameMemory s t) ∧
    (∃ t, exec .tay s = .next t ∧ t = { s with y := s.a, p := t.p } ∧ ZnOf s.a t ∧ KeepsFlags [.z, .n] s t ∧
      SameMemory s t) ∧
    (∃ t, exec .txa s = .next t ∧ t = { s with a := s.x, p := t.p } ∧ ZnOf s.x t ∧ KeepsFlags [.z, .n] s t ∧
      SameMemory s t) ∧
    (∃ t, exec .tya s = .next t ∧ t = { s with a := s.y, p := t.p } ∧ ZnOf s.y t ∧ KeepsFlags [.z, .n] s t ∧
      SameMemory s t) ∧
    (∃ t, exec .tsx s = .next t ∧ t = { s with x := s.sp, p := t.p } ∧ ZnOf s.sp t ∧ KeepsFlags [.z, .n] s t ∧
      SameMemory s t) ∧
    (∃ t, exec .txs s = .next t ∧ t = { s with sp := s.x } ∧ KeepsFlags [] s t ∧ SameMemory s t)

/-- R186, R187: PHA pushes A, PHP pushes P with B and U set; P itself is not altered. -/
def Obligations.PushesOfAAndP : Prop :=
  ∀ (i : Instr) (s : State), i.mnemonic ∈ [.pha, .php] → RamWf s →
    (i.mnemonic, i.opcode) ∈ [(.pha, 0x48), (.php, 0x08)] ∧ i.length = 1 ∧
    ∃ (t : State) (v : Byte), exec i s = .next t ∧ t = { s with ram := t.ram, sp := t.sp } ∧
      t.sp.toNat = (s.sp.toNat + 255) % 256 ∧
      (i.mnemonic = .pha → v = s.a) ∧
      (i.mnemonic = .php → ∀ f : Flag, getFlag f v = if f = .b ∨ f = .u then true else getFlag f s.p) ∧
      StoresByte (BitVec.ofNat 16 (0x0100 + s.sp.toNat)) v s t

/-- R188, R189: PLA and PLP pull the byte above SP; PLA sets Z and N, PLP restores P with B clear and U set. -/
def Obligations.PullsOfAAndP : Prop :=
  ∀ s : State,
    let v := s.ram.read (0x0100 + (s.sp.toNat + 1) % 256)
    Instr.pla.opcode = 0x68 ∧ Instr.pla.length = 1 ∧ Instr.plp.opcode = 0x28 ∧ Instr.plp.length = 1 ∧
    (∃ t, exec .pla s = .next t ∧ t = { s with a := v, p := t.p, sp := t.sp } ∧
      t.sp.toNat = (s.sp.toNat + 1) % 256 ∧ ZnOf v t ∧ KeepsFlags [.z, .n] s t ∧ SameMemory s t) ∧
    (∃ t, exec .plp s = .next t ∧ t = { s with p := t.p, sp := t.sp } ∧
      t.sp.toNat = (s.sp.toNat + 1) % 256 ∧ SameMemory s t ∧
      ∀ f : Flag, getFlag f t.p = if f = .b then false else if f = .u then true else getFlag f v)

/-! ### Control transfer -/

/-- R200, R201, R104: JMP absolute sets PC to its operand, JMP indirect to the word its pointer designates, the high
byte from the pointer's own page; no advance, nothing else changes. -/
def Obligations.JumpsSetPc : Prop :=
  ∀ (s : State) (target ptr : Word),
    (Instr.jmpAbs target).opcode = 0x4C ∧ (Instr.jmpAbs target).length = 3 ∧
    (Instr.jmpInd ptr).opcode = 0x6C ∧ (Instr.jmpInd ptr).length = 3 ∧
    exec (.jmpAbs target) s = .next { s with pc := target } ∧
    ∀ lo hi : Byte, readByte ptr s = .ok lo →
      readByte (BitVec.ofNat 16 (if ptr.toNat % 256 = 255 then ptr.toNat - 255 else ptr.toNat + 1)) s = .ok hi →
      exec (.jmpInd ptr) s = .next { s with pc := BitVec.ofNat 16 (hi.toNat * 256 + lo.toNat) }

/-- R202, R42: JSR without an overlap pushes the address of its last byte, high byte first, and jumps; no flag
changes. -/
def Obligations.JsrPushesAndJumps : Prop :=
  ∀ (s : State) (target : Word), RamWf s → jsrOverlap s = none →
    ∃ t, exec (.jsr target) s = .next t ∧ t = { s with pc := target, sp := t.sp, ram := t.ram } ∧
      t.sp.toNat = (s.sp.toNat + 254) % 256 ∧
      ∀ addr : Word, readByte addr t =
        if SameCell (BitVec.ofNat 16 (0x0100 + (s.sp.toNat + 255) % 256)) addr then
          .ok (BitVec.ofNat 8 ((s.pc.toNat + 1) % 65536 % 256))
        else if SameCell (BitVec.ofNat 16 (0x0100 + s.sp.toNat)) addr then
          .ok (BitVec.ofNat 8 ((s.pc.toNat + 1) % 65536 / 256))
        else readByte addr s

/-- R202, R243: when a push would write the physical byte of one of JSR's operand bytes, JSR pushes nothing and faults
with the first such operand address; otherwise it does not fault. -/
def Obligations.JsrOverlapFaults : Prop :=
  ∀ (s : State) (target : Word),
    let hits (addr : Word) : Prop :=
      addr.toNat ≤ 0x1FFF ∧
        (addr.toNat % 0x0800 = 0x0100 + s.sp.toNat ∨ addr.toNat % 0x0800 = 0x0100 + (s.sp.toNat + 255) % 256)
    (∀ hit : Word, (hits s.pc ∧ hit = s.pc ∨ ¬hits s.pc ∧ hits (s.pc + 1) ∧ hit = s.pc + 1) →
      exec (.jsr target) s =
        .next { s with fault := some { kind := .stackOverlapsOperand, pc := s.pc - 1, ir := s.ir, addr := hit } }) ∧
    (¬hits s.pc → ¬hits (s.pc + 1) → jsrOverlap s = none)

/-- R202: without an overlap the pushes leave both operand bytes as they were, so the target read after the pushes is
the word the fetch read before them (log entry 7). -/
def Obligations.JsrTargetSurvivesThePushes : Prop :=
  ∀ s : State, RamWf s → jsrOverlap s = none → readWord s.pc (pushWord (s.pc + 1) s) = readWord s.pc s

/-- R203: RTS pulls low then high and adds 1; SP by 2, no flag, no byte changed. -/
def Obligations.RtsReturnsPastTheJsr : Prop :=
  ∀ s : State,
    let lo := s.ram.read (0x0100 + (s.sp.toNat + 1) % 256)
    let hi := s.ram.read (0x0100 + (s.sp.toNat + 2) % 256)
    Instr.rts.opcode = 0x60 ∧ Instr.rts.length = 1 ∧
    ∃ t, exec .rts s = .next t ∧ t = { s with pc := t.pc, sp := t.sp } ∧
      t.pc.toNat = (hi.toNat * 256 + lo.toNat + 1) % 65536 ∧ t.sp.toNat = (s.sp.toNat + 2) % 256 ∧ SameMemory s t

/-- R204: RTI pulls P (B clear, U set), then PC low, then high, with nothing added; SP by 3. -/
def Obligations.RtiRestoresStatusAndPc : Prop :=
  ∀ s : State,
    let v := s.ram.read (0x0100 + (s.sp.toNat + 1) % 256)
    let lo := s.ram.read (0x0100 + (s.sp.toNat + 2) % 256)
    let hi := s.ram.read (0x0100 + (s.sp.toNat + 3) % 256)
    Instr.rti.opcode = 0x40 ∧ Instr.rti.length = 1 ∧
    ∃ t, exec .rti s = .next t ∧ t = { s with p := t.p, pc := t.pc, sp := t.sp } ∧
      (∀ f : Flag, getFlag f t.p = if f = .b then false else if f = .u then true else getFlag f v) ∧
      t.pc.toNat = hi.toNat * 256 + lo.toNat ∧ t.sp.toNat = (s.sp.toNat + 3) % 256 ∧ SameMemory s t

/-- R202, R203: RTS after JSR comes back to the instruction after the JSR with SP as it was, whatever PC the
subroutine's RTS stands at. -/
def Obligations.RtsUndoesJsr : Prop :=
  ∀ (s t : State) (target : Word), RamWf s → jsrOverlap s = none → exec (.jsr target) s = .next t →
    ∀ pc : Word, ∃ u, exec .rts { t with pc := pc } = .next u ∧ u.pc = s.pc + 2 ∧ u.sp = s.sp

/-- R205 to R213, R105: each branch tests its flag; taken, PC is the address after the branch plus the signed offset,
modulo 65536; not taken, PC is the address after the branch. Nothing else changes. -/
def Obligations.BranchesTestTheirFlag : Prop :=
  ∀ (s : State) (off : Byte) (mk : Byte → Instr) (op : Byte) (f : Flag) (taken : Bool),
    (mk, op, f, taken) ∈
      [(Instr.bcc, (0x90 : Byte), Flag.c, false), (.bcs, 0xB0, .c, true), (.beq, 0xF0, .z, true),
        (.bne, 0xD0, .z, false), (.bmi, 0x30, .n, true), (.bpl, 0x10, .n, false), (.bvc, 0x50, .v, false),
        (.bvs, 0x70, .v, true)] →
    (mk off).opcode = op ∧ (mk off).mode = .relative ∧ (mk off).length = 2 ∧
    ∃ t, exec (mk off) s = .next t ∧ t = { s with pc := t.pc } ∧ SameMemory s t ∧
      (t.pc.toNat : Int) = ((s.pc.toNat : Int) + 1 + if getFlag f s.p = taken then signed off else 0) % 65536

/-- R215: BRK, opcode 0x00, sets B, halts, and changes nothing else; PC stays the address after it. That BRK is one
byte, and so that PC does not move in exec, is the spec's own decision D13, marked so inside R215. -/
def Obligations.BrkSetsBAndHalts : Prop :=
  ∀ s : State, Instr.brk.opcode = 0x00 ∧ Instr.brk.length = 1 ∧
    ∃ t, exec .brk s = .next t ∧ t = { s with p := t.p, halted := true } ∧
      getFlag .b t.p = true ∧ KeepsFlags [.b] s t ∧ SameMemory s t

/-! ### Flag instructions and NOP -/

/-- R230 to R237: each flag instruction writes its one flag and changes nothing else; NOP changes nothing. PC is the
next instruction's address already, each being one byte long. -/
def Obligations.FlagInstructionsAndNop : Prop :=
  ∀ s : State,
    (∀ (i : Instr) (op : Byte) (f : Flag) (v : Bool),
      (i, op, f, v) ∈
        [(Instr.clc, (0x18 : Byte), Flag.c, false), (.sec, 0x38, .c, true), (.cli, 0x58, .i, false),
          (.sei, 0x78, .i, true), (.cld, 0xD8, .d, false), (.sed, 0xF8, .d, true), (.clv, 0xB8, .v, false)] →
      i.opcode = op ∧ i.length = 1 ∧
      ∃ t, exec i s = .next t ∧ t = { s with p := t.p } ∧ getFlag f t.p = v ∧ KeepsFlags [f] s t ∧ SameMemory s t) ∧
    Instr.nop.opcode = 0xEA ∧ Instr.nop.length = 1 ∧ exec .nop s = .next s

/-! ### Who writes what: whole-machine rules -/

/-- R20, R24, R30, R54: A, X, Y, SP, halted and RAM change only in the instructions that R20's table, R24, R215 and
the stores and pushes name; IR and the ROM record change in no execute phase. -/
def Obligations.WhoWritesWhichRegister : Prop :=
  ∀ (i : Instr) (s t : State), exec i s = .next t →
    (t.a ≠ s.a → i.mnemonic ∈ [.adc, .sbc, .and, .ora, .eor, .lda, .pla, .txa, .tya] ∨
      i ∈ [Instr.aslA, .lsrA, .rolA, .rorA]) ∧
    (t.x ≠ s.x → i.mnemonic ∈ [.ldx, .tax, .tsx, .inx, .dex]) ∧
    (t.y ≠ s.y → i.mnemonic ∈ [.ldy, .tay, .iny, .dey]) ∧
    (t.sp ≠ s.sp → i.mnemonic ∈ [.txs, .pha, .php, .pla, .plp, .jsr, .rts, .rti]) ∧
    (t.halted ≠ s.halted → i.mnemonic = .brk) ∧
    (t.ram ≠ s.ram →
      i.mnemonic ∈ [.sta, .stx, .sty, .asl, .lsr, .rol, .ror, .inc, .dec, .pha, .php, .jsr]) ∧
    t.ir = s.ir ∧ t.rom = s.rom

/-- R26: each flag changes only in the instructions R26's table names. -/
def Obligations.WhoWritesWhichFlag : Prop :=
  ∀ (i : Instr) (s t : State) (f : Flag), exec i s = .next t → getFlag f t.p ≠ getFlag f s.p →
    i.mnemonic ∈ [.plp, .rti] ∨
    match f with
    | .c => i.mnemonic ∈ [.adc, .sbc, .asl, .lsr, .rol, .ror, .cmp, .cpx, .cpy, .clc, .sec]
    | .z | .n =>
      i.mnemonic ∈
        [.adc, .sbc, .asl, .lsr, .rol, .ror, .cmp, .cpx, .cpy, .inc, .dec, .inx, .iny, .dex, .dey, .and, .ora, .eor,
          .bit, .lda, .ldx, .ldy, .tax, .tay, .txa, .tya, .tsx, .pla]
    | .i => i.mnemonic ∈ [.cli, .sei]
    | .d => i.mnemonic ∈ [.cld, .sed]
    | .b => i.mnemonic = .brk
    | .u => False
    | .v => i.mnemonic ∈ [.adc, .sbc, .bit, .clv]

/-! ### Faults, halting, the step -/

/-- R8, R31, R32, R91, R240: every step of every state answers a next state; a halted core, and a core with a fault
recorded, answers the same state. A fault is a recorded state, never a stop of the model (log entry 6). -/
def Obligations.EveryStepAnswersANextState : Prop :=
  ∀ s : State, (∃ t, step s = .next t) ∧ (¬Running s → step s = .next s)

/-- R240, R246: a step of a running core that records a fault leaves it not halted, names the instruction's own
address and IR, and keeps A, X, Y, P and the ROM record; PC is pc0, or pc0 + 1 after the opcode fetch; SP and RAM
change only when the instruction is JSR. -/
def Obligations.FaultsArePrecise : Prop :=
  ∀ (s t : State) (r : FaultRecord), Running s → step s = .next t → t.fault = some r →
    r.pc = s.pc ∧ r.ir = t.ir ∧ t.halted = false ∧ t.a = s.a ∧ t.x = s.x ∧ t.y = s.y ∧ t.p = s.p ∧ t.rom = s.rom ∧
    (t.pc = s.pc ∧ t.ir = s.ir ∨ t.pc = s.pc + 1 ∧ readByte s.pc s = .ok t.ir) ∧
    (readByte s.pc s ≠ .ok 0x20 → t.sp = s.sp ∧ t.ram = s.ram)

/-- R215, R216, R254, R278: a running core becomes halted in a step only by executing the byte 0x00, and then it is a
normal end with PC = the BRK's address + 1, IR = 0x00, B = 1 and everything else kept. -/
def Obligations.OnlyBrkHalts : Prop :=
  ∀ s t : State, Running s → step s = .next t → t.halted = true →
    readByte s.pc s = .ok 0x00 ∧ NormalEnd t ∧
    t = { s with pc := s.pc + 1, ir := 0x00, halted := true, p := t.p } ∧
    getFlag .b t.p = true ∧ KeepsFlags [.b] s t

/-- R57, R284: a fetch from 0x2000 to 0x7FFF executes BRK, whatever the platform holds: B is set, the core halts with
PC one past, IR is 0x00 and nothing else changes. -/
def Obligations.FetchOutsideMemoryHalts : Prop :=
  ∀ s : State, Running s → 0x2000 ≤ s.pc.toNat → s.pc.toNat ≤ 0x7FFF →
    ∃ t, step s = .next t ∧ t = { s with pc := s.pc + 1, ir := 0x00, p := t.p, halted := true } ∧
      getFlag .b t.p = true ∧ KeepsFlags [.b] s t ∧ NormalEnd t

/-- R54, R58: no step changes the ROM record, and every address outside RAM reads the same after it. -/
def Obligations.NoStepChangesRom : Prop :=
  ∀ s t : State, step s = .next t →
    t.rom = s.rom ∧ ∀ addr : Word, inRam addr = false → readByte addr t = readByte addr s

/-- R27, R55, R246, R278: every step keeps the invariant: canonical RAM and images, U reads 1, and a halted core is
one that ran BRK and recorded no fault. -/
def Obligations.StepKeepsInvariant : Prop := ∀ s t : State, Inv s → step s = .next t → Inv t

/-! ### Reset and launch -/

/-- R270: Reset(): PC from the vector, SP, P, A, X and halted written, and nothing else. -/
def Obligations.ResetFollowsItsRule : Prop :=
  ∀ (s : State) (lo hi : Byte), readByte 0xFFFC s = .ok lo → readByte 0xFFFD s = .ok hi →
    resetEvent s =
      { s with
        pc := BitVec.ofNat 16 (hi.toNat * 256 + lo.toNat), sp := 0xFD, p := 0x30, a := 0x00, x := 0x00,
        halted := false }

/-- R272, R273: a reset of a core without a record whose vector read faults records the byte that lies past the image
and changes nothing else, halted included; a record already there stays, whatever the vector read does. That a
faulting reset of a core with a record changes nothing at all is the model's own choice (DEDUCED, log entry 11). -/
def Obligations.FaultingResetRecordsOnly : Prop :=
  ∀ (s : State) (k : Fault) (addr : Word),
    (readByte 0xFFFC s = .fault k addr ∨ (∃ lo, readByte 0xFFFC s = .ok lo) ∧ readByte 0xFFFD s = .fault k addr →
      (s.fault = none →
        resetEvent s = { s with fault := some { kind := .prgOutOfRange, pc := 0xFFFC, ir := s.ir, addr := addr } }) ∧
      (s.fault ≠ none → resetEvent s = s)) ∧
    (s.fault ≠ none → (resetEvent s).fault = s.fault)

/-- R45, R274, R277: after the first reset every register but Y and IR has R45's value whatever it held at power-on, Y
is y0, IR is what it was, RAM is ram0. -/
def Obligations.LaunchHasTheResetValues : Prop :=
  ∀ (l : Launch) (u : Unspecified) (v : Word), readWord 0xFFFC (powerOn l u) = .ok v →
    launch l u =
      { a := 0x00, x := 0x00, y := l.y0, sp := 0xFD, pc := v, p := 0x30, ir := u.ir, halted := false, fault := none,
        ram := l.ram0, rom := l.rom }

/-- The model's own choice (log entries 1 to 4): State.reset is the launch with a 16 KiB image of zero bytes, no CHR,
RAM all zero, y0 = 0x00 and IR = 0x00, whatever the other registers held; and it meets the invariant. -/
def Obligations.ResetStateIsALaunch : Prop :=
  (∀ u : Unspecified, u.ir = 0x00 →
    launch
      { rom :=
          { prg := { len := 0x4000, cells := [] }, chr := { len := 0, cells := [] }, mapper := 0x00,
            mirroring := .horizontal }
        ram0 := []
        y0 := 0x00 } u = State.reset) ∧
  Inv State.reset

/-- R275, R276: after the loading helper and a reset, a platform with a 16 KiB image starts at load_addr. That the
vector stays where a program byte falls on its offset, and what becomes of bytes outside RAM and the PRG window, is
the model's own choice (DESIGN CHOICE, log entries 5 and 15). -/
def Obligations.LoadedProgramStartsAtItsAddress : Prop :=
  ∀ (s : State) (loadAddr : Word) (program : List Byte), s.rom.prg.len = 0x4000 → s.rom.prg.wf = true →
    (resetEvent (loadProgram loadAddr program s)).pc = loadAddr

/-- R75, R76: a buffer whose first four bytes are not the magic, or whose format version is not 0, gives the empty ROM
record, and a core on it faults at reset with PrgOutOfRange. Two points are the model's own choice: that such a buffer
gives no ROM and is not refused even when it is shorter than its header declares (DEDUCED, log entry 10), and what the
empty record holds beside no PRG byte (DESIGN CHOICE, log entry 3). -/
def Obligations.BadCartridgeFaultsAtReset : Prop :=
  ∀ (buffer : List Byte) (l : Launch) (u : Unspecified),
    (buffer.take 4 ≠ [0x4E, 0x45, 0x53, 0x1A] ∨ ∃ b : Byte, buffer[7]? = some b ∧ b.toNat / 4 % 4 ≠ 0) →
    platformRom buffer = .ok Rom.empty ∧
    (l.rom = Rom.empty →
      launch l u =
        { powerOn l u with fault := some { kind := .prgOutOfRange, pc := 0xFFFC, ir := u.ir, addr := 0xFFFC } })
end

