-- ==== Sys2Proof/Laws/Memory.lean ====
section
/-! SUPPORT. Bytes by key: read after write, and every operation keeps the canonical form. -/

namespace Sys2Proof.Machine

theorem Memory.above_mono {k n : Nat} (h : k ≤ n) : ∀ {m : Memory}, m.above n = true → m.above k = true
  | [], _ => rfl
  | (a, _) :: t, hm => by
    simp only [Memory.above, Bool.and_eq_true, decide_eq_true_eq] at hm ⊢
    exact ⟨by omega, Memory.above_mono h hm.2⟩

/-- A key below every listed key reads the unlisted byte. -/
theorem Memory.read_of_above {k n : Nat} (h : k ≤ n) : ∀ {m : Memory}, m.above n = true → m.read k = Config.unlistedByte
  | [], _ => rfl
  | (a, b) :: t, hm => by
    simp only [Memory.above, Bool.and_eq_true, decide_eq_true_eq] at hm
    rw [Memory.read, if_neg (by omega), Memory.read_of_above h hm.2]

theorem Memory.above_write {n k : Nat} {v : Byte} (h : n < k) :
    ∀ {m : Memory}, m.above n = true → (m.write k v).above n = true
  | [], _ => by
    unfold Memory.write
    split <;> simp [Memory.above, h]
  | (a, b) :: t, hm => by
    simp only [Memory.above, Bool.and_eq_true, decide_eq_true_eq] at hm
    unfold Memory.write
    split
    · split <;> simp [Memory.above, hm, h]
    · split
      · split <;> simp [Memory.above, hm, h]
      · simp [Memory.above, hm, Memory.above_write h hm.2]

/-- A write keeps the canonical form. -/
theorem Memory.wf_write {k : Nat} {v : Byte} : ∀ {m : Memory}, m.wf = true → (m.write k v).wf = true
  | [], _ => by
    unfold Memory.write
    split
    · rfl
    · simp [Memory.wf, Memory.above, *]
  | (a, b) :: t, hm => by
    simp only [Memory.wf, Bool.and_eq_true, decide_eq_true_eq] at hm
    obtain ⟨⟨hb, ha⟩, ht⟩ := hm
    unfold Memory.write
    split
    · rename_i hk
      split
      · simp [Memory.wf, *]
      · simp [Memory.wf, Memory.above, Memory.above_mono (Nat.le_of_lt hk) ha, *]
    · split
      · rename_i hk
        subst hk
        split
        · exact ht
        · simp [Memory.wf, *]
      · simp [Memory.wf, Memory.above_write (show a < k by omega) ha, Memory.wf_write ht, hb]

/-- A write below a bound keeps every key below it. -/
theorem Memory.below_write {n k : Nat} {v : Byte} (h : k < n) :
    ∀ {m : Memory}, m.below n = true → (m.write k v).below n = true
  | [], _ => by
    unfold Memory.write
    split <;> simp [Memory.below, h]
  | (a, b) :: t, hm => by
    simp only [Memory.below, Bool.and_eq_true, decide_eq_true_eq] at hm
    unfold Memory.write
    split
    · split <;> simp [Memory.below, hm, h]
    · split
      · split <;> simp [Memory.below, hm, h]
      · simp [Memory.below, hm, Memory.below_write h hm.2]

/-- In canonical form, a read after a write gives the byte written at its key and the old byte at every other key. -/
theorem Memory.read_write {k j : Nat} {v : Byte} :
    ∀ {m : Memory}, m.wf = true → (m.write k v).read j = if j = k then v else m.read j
  | [], _ => by
    unfold Memory.write
    split
    · rename_i hv
      simp [Memory.read, hv]
    · simp [Memory.read, eq_comm]
  | (a, b) :: t, hm => by
    simp only [Memory.wf, Bool.and_eq_true, decide_eq_true_eq] at hm
    obtain ⟨⟨hb, ha⟩, ht⟩ := hm
    unfold Memory.write
    by_cases hk : k < a
    · rw [if_pos hk]
      by_cases hv : v = Config.unlistedByte
      · rw [if_pos hv]
        by_cases hj : j = k
        · subst hj
          rw [if_pos rfl, hv, Memory.read, if_neg (by omega), Memory.read_of_above (Nat.le_of_lt hk) ha]
        · rw [if_neg hj]
      · rw [if_neg hv]
        by_cases hj : j = k
        · subst hj
          simp [Memory.read]
        · rw [if_neg hj, Memory.read, if_neg (by omega)]
    · rw [if_neg hk]
      by_cases hk' : k = a
      · subst hk'
        rw [if_pos rfl]
        by_cases hv : v = Config.unlistedByte
        · rw [if_pos hv]
          by_cases hj : j = k
          · subst hj
            rw [if_pos rfl, hv, Memory.read_of_above (Nat.le_refl _) ha]
          · rw [if_neg hj, Memory.read, if_neg (by omega)]
        · rw [if_neg hv]
          by_cases hj : j = k
          · subst hj
            simp [Memory.read]
          · rw [if_neg hj, Memory.read, if_neg (by omega), Memory.read, if_neg (by omega)]
      · rw [if_neg hk', Memory.read]
        by_cases hj : j = a
        · subst hj
          rw [if_pos rfl, if_neg (by omega), Memory.read, if_pos rfl]
        · rw [if_neg hj, Memory.read_write ht, Memory.read, if_neg hj]

/-- A physical RAM index is below the RAM's size (R55). -/
theorem ramIndex_lt (addr : Word) : ramIndex addr < Config.ramSize := by
  unfold ramIndex Config.ramSize
  rw [BitVec.toNat_and]
  exact Nat.lt_of_le_of_lt Nat.and_le_right (by decide)

end Sys2Proof.Machine
end

