-- ==== Sys2Proof/Laws/State.lean ====
section
/-! SUPPORT. One lemma per field per named update of State: what the update leaves or writes. -/

namespace Sys2Proof.Machine

@[simp] theorem advance_a (o : Operand) (s : State) : (advance o s).a = s.a := rfl
@[simp] theorem advance_x (o : Operand) (s : State) : (advance o s).x = s.x := rfl
@[simp] theorem advance_y (o : Operand) (s : State) : (advance o s).y = s.y := rfl
@[simp] theorem advance_sp (o : Operand) (s : State) : (advance o s).sp = s.sp := rfl
@[simp] theorem advance_pc (o : Operand) (s : State) : (advance o s).pc = s.pc + BitVec.ofNat 16 o.size := rfl
@[simp] theorem advance_p (o : Operand) (s : State) : (advance o s).p = s.p := rfl
@[simp] theorem advance_ir (o : Operand) (s : State) : (advance o s).ir = s.ir := rfl
@[simp] theorem advance_halted (o : Operand) (s : State) : (advance o s).halted = s.halted := rfl
@[simp] theorem advance_fault (o : Operand) (s : State) : (advance o s).fault = s.fault := rfl
@[simp] theorem advance_ram (o : Operand) (s : State) : (advance o s).ram = s.ram := rfl
@[simp] theorem advance_rom (o : Operand) (s : State) : (advance o s).rom = s.rom := rfl

@[simp] theorem raiseAt_a (pc0 : Word) (k : Fault) (addr : Word) (s : State) : (raiseAt pc0 k addr s).a = s.a := rfl
@[simp] theorem raiseAt_x (pc0 : Word) (k : Fault) (addr : Word) (s : State) : (raiseAt pc0 k addr s).x = s.x := rfl
@[simp] theorem raiseAt_y (pc0 : Word) (k : Fault) (addr : Word) (s : State) : (raiseAt pc0 k addr s).y = s.y := rfl
@[simp] theorem raiseAt_sp (pc0 : Word) (k : Fault) (addr : Word) (s : State) : (raiseAt pc0 k addr s).sp = s.sp := rfl
@[simp] theorem raiseAt_pc (pc0 : Word) (k : Fault) (addr : Word) (s : State) : (raiseAt pc0 k addr s).pc = s.pc := rfl
@[simp] theorem raiseAt_p (pc0 : Word) (k : Fault) (addr : Word) (s : State) : (raiseAt pc0 k addr s).p = s.p := rfl
@[simp] theorem raiseAt_ir (pc0 : Word) (k : Fault) (addr : Word) (s : State) : (raiseAt pc0 k addr s).ir = s.ir := rfl
@[simp] theorem raiseAt_halted (pc0 : Word) (k : Fault) (addr : Word) (s : State) : (raiseAt pc0 k addr s).halted = s.halted := rfl
@[simp] theorem raiseAt_fault (pc0 : Word) (k : Fault) (addr : Word) (s : State) : (raiseAt pc0 k addr s).fault = some { kind := k, pc := pc0, ir := s.ir, addr := addr } := rfl
@[simp] theorem raiseAt_ram (pc0 : Word) (k : Fault) (addr : Word) (s : State) : (raiseAt pc0 k addr s).ram = s.ram := rfl
@[simp] theorem raiseAt_rom (pc0 : Word) (k : Fault) (addr : Word) (s : State) : (raiseAt pc0 k addr s).rom = s.rom := rfl

@[simp] theorem raise_a (k : Fault) (addr : Word) (s : State) : (raise k addr s).a = s.a := rfl
@[simp] theorem raise_x (k : Fault) (addr : Word) (s : State) : (raise k addr s).x = s.x := rfl
@[simp] theorem raise_y (k : Fault) (addr : Word) (s : State) : (raise k addr s).y = s.y := rfl
@[simp] theorem raise_sp (k : Fault) (addr : Word) (s : State) : (raise k addr s).sp = s.sp := rfl
@[simp] theorem raise_pc (k : Fault) (addr : Word) (s : State) : (raise k addr s).pc = s.pc := rfl
@[simp] theorem raise_p (k : Fault) (addr : Word) (s : State) : (raise k addr s).p = s.p := rfl
@[simp] theorem raise_ir (k : Fault) (addr : Word) (s : State) : (raise k addr s).ir = s.ir := rfl
@[simp] theorem raise_halted (k : Fault) (addr : Word) (s : State) : (raise k addr s).halted = s.halted := rfl
@[simp] theorem raise_fault (k : Fault) (addr : Word) (s : State) : (raise k addr s).fault = some { kind := k, pc := s.pc - 1, ir := s.ir, addr := addr } := rfl
@[simp] theorem raise_ram (k : Fault) (addr : Word) (s : State) : (raise k addr s).ram = s.ram := rfl
@[simp] theorem raise_rom (k : Fault) (addr : Word) (s : State) : (raise k addr s).rom = s.rom := rfl

@[simp] theorem writeByte_a (addr : Word) (v : Byte) (s : State) : (writeByte addr v s).a = s.a := by unfold writeByte; split <;> rfl
@[simp] theorem writeByte_x (addr : Word) (v : Byte) (s : State) : (writeByte addr v s).x = s.x := by unfold writeByte; split <;> rfl
@[simp] theorem writeByte_y (addr : Word) (v : Byte) (s : State) : (writeByte addr v s).y = s.y := by unfold writeByte; split <;> rfl
@[simp] theorem writeByte_sp (addr : Word) (v : Byte) (s : State) : (writeByte addr v s).sp = s.sp := by unfold writeByte; split <;> rfl
@[simp] theorem writeByte_pc (addr : Word) (v : Byte) (s : State) : (writeByte addr v s).pc = s.pc := by unfold writeByte; split <;> rfl
@[simp] theorem writeByte_p (addr : Word) (v : Byte) (s : State) : (writeByte addr v s).p = s.p := by unfold writeByte; split <;> rfl
@[simp] theorem writeByte_ir (addr : Word) (v : Byte) (s : State) : (writeByte addr v s).ir = s.ir := by unfold writeByte; split <;> rfl
@[simp] theorem writeByte_halted (addr : Word) (v : Byte) (s : State) : (writeByte addr v s).halted = s.halted := by unfold writeByte; split <;> rfl
@[simp] theorem writeByte_fault (addr : Word) (v : Byte) (s : State) : (writeByte addr v s).fault = s.fault := by unfold writeByte; split <;> rfl
@[simp] theorem writeByte_rom (addr : Word) (v : Byte) (s : State) : (writeByte addr v s).rom = s.rom := by unfold writeByte; split <;> rfl

@[simp] theorem push_a (v : Byte) (s : State) : (push v s).a = s.a := by simp [push]
@[simp] theorem push_x (v : Byte) (s : State) : (push v s).x = s.x := by simp [push]
@[simp] theorem push_y (v : Byte) (s : State) : (push v s).y = s.y := by simp [push]
@[simp] theorem push_sp (v : Byte) (s : State) : (push v s).sp = s.sp - 1 := rfl
@[simp] theorem push_pc (v : Byte) (s : State) : (push v s).pc = s.pc := by simp [push]
@[simp] theorem push_p (v : Byte) (s : State) : (push v s).p = s.p := by simp [push]
@[simp] theorem push_ir (v : Byte) (s : State) : (push v s).ir = s.ir := by simp [push]
@[simp] theorem push_halted (v : Byte) (s : State) : (push v s).halted = s.halted := by simp [push]
@[simp] theorem push_fault (v : Byte) (s : State) : (push v s).fault = s.fault := by simp [push]
@[simp] theorem push_rom (v : Byte) (s : State) : (push v s).rom = s.rom := by simp [push]

@[simp] theorem pushWord_a (w : Word) (s : State) : (pushWord w s).a = s.a := by simp [pushWord]
@[simp] theorem pushWord_x (w : Word) (s : State) : (pushWord w s).x = s.x := by simp [pushWord]
@[simp] theorem pushWord_y (w : Word) (s : State) : (pushWord w s).y = s.y := by simp [pushWord]
@[simp] theorem pushWord_sp (w : Word) (s : State) : (pushWord w s).sp = s.sp - 1 - 1 := rfl
@[simp] theorem pushWord_pc (w : Word) (s : State) : (pushWord w s).pc = s.pc := by simp [pushWord]
@[simp] theorem pushWord_p (w : Word) (s : State) : (pushWord w s).p = s.p := by simp [pushWord]
@[simp] theorem pushWord_ir (w : Word) (s : State) : (pushWord w s).ir = s.ir := by simp [pushWord]
@[simp] theorem pushWord_halted (w : Word) (s : State) : (pushWord w s).halted = s.halted := by simp [pushWord]
@[simp] theorem pushWord_fault (w : Word) (s : State) : (pushWord w s).fault = s.fault := by simp [pushWord]
@[simp] theorem pushWord_rom (w : Word) (s : State) : (pushWord w s).rom = s.rom := by simp [pushWord]

@[simp] theorem jsrPush_a (s : State) : (jsrPush s).a = s.a := by simp [jsrPush]
@[simp] theorem jsrPush_x (s : State) : (jsrPush s).x = s.x := by simp [jsrPush]
@[simp] theorem jsrPush_y (s : State) : (jsrPush s).y = s.y := by simp [jsrPush]
@[simp] theorem jsrPush_sp (s : State) : (jsrPush s).sp = s.sp - 1 - 1 := rfl
@[simp] theorem jsrPush_pc (s : State) : (jsrPush s).pc = s.pc := by simp [jsrPush]
@[simp] theorem jsrPush_p (s : State) : (jsrPush s).p = s.p := by simp [jsrPush]
@[simp] theorem jsrPush_ir (s : State) : (jsrPush s).ir = s.ir := by simp [jsrPush]
@[simp] theorem jsrPush_halted (s : State) : (jsrPush s).halted = s.halted := by simp [jsrPush]
@[simp] theorem jsrPush_fault (s : State) : (jsrPush s).fault = s.fault := by simp [jsrPush]
@[simp] theorem jsrPush_rom (s : State) : (jsrPush s).rom = s.rom := by simp [jsrPush]

@[simp] theorem pullSp_a (s : State) : (pullSp s).a = s.a := rfl
@[simp] theorem pullSp_x (s : State) : (pullSp s).x = s.x := rfl
@[simp] theorem pullSp_y (s : State) : (pullSp s).y = s.y := rfl
@[simp] theorem pullSp_sp (s : State) : (pullSp s).sp = s.sp + 1 := rfl
@[simp] theorem pullSp_pc (s : State) : (pullSp s).pc = s.pc := rfl
@[simp] theorem pullSp_p (s : State) : (pullSp s).p = s.p := rfl
@[simp] theorem pullSp_ir (s : State) : (pullSp s).ir = s.ir := rfl
@[simp] theorem pullSp_halted (s : State) : (pullSp s).halted = s.halted := rfl
@[simp] theorem pullSp_fault (s : State) : (pullSp s).fault = s.fault := rfl
@[simp] theorem pullSp_ram (s : State) : (pullSp s).ram = s.ram := rfl
@[simp] theorem pullSp_rom (s : State) : (pullSp s).rom = s.rom := rfl

@[simp] theorem pullWordSp_a (s : State) : (pullWordSp s).a = s.a := rfl
@[simp] theorem pullWordSp_x (s : State) : (pullWordSp s).x = s.x := rfl
@[simp] theorem pullWordSp_y (s : State) : (pullWordSp s).y = s.y := rfl
@[simp] theorem pullWordSp_sp (s : State) : (pullWordSp s).sp = s.sp + 1 + 1 := rfl
@[simp] theorem pullWordSp_pc (s : State) : (pullWordSp s).pc = s.pc := rfl
@[simp] theorem pullWordSp_p (s : State) : (pullWordSp s).p = s.p := rfl
@[simp] theorem pullWordSp_ir (s : State) : (pullWordSp s).ir = s.ir := rfl
@[simp] theorem pullWordSp_halted (s : State) : (pullWordSp s).halted = s.halted := rfl
@[simp] theorem pullWordSp_fault (s : State) : (pullWordSp s).fault = s.fault := rfl
@[simp] theorem pullWordSp_ram (s : State) : (pullWordSp s).ram = s.ram := rfl
@[simp] theorem pullWordSp_rom (s : State) : (pullWordSp s).rom = s.rom := rfl

@[simp] theorem pullStatus_a (s : State) : (pullStatus s).a = s.a := rfl
@[simp] theorem pullStatus_x (s : State) : (pullStatus s).x = s.x := rfl
@[simp] theorem pullStatus_y (s : State) : (pullStatus s).y = s.y := rfl
@[simp] theorem pullStatus_sp (s : State) : (pullStatus s).sp = s.sp + 1 := rfl
@[simp] theorem pullStatus_pc (s : State) : (pullStatus s).pc = s.pc := rfl
@[simp] theorem pullStatus_p (s : State) : (pullStatus s).p = restoredStatus (pullByte s) := rfl
@[simp] theorem pullStatus_ir (s : State) : (pullStatus s).ir = s.ir := rfl
@[simp] theorem pullStatus_halted (s : State) : (pullStatus s).halted = s.halted := rfl
@[simp] theorem pullStatus_fault (s : State) : (pullStatus s).fault = s.fault := rfl
@[simp] theorem pullStatus_ram (s : State) : (pullStatus s).ram = s.ram := rfl
@[simp] theorem pullStatus_rom (s : State) : (pullStatus s).rom = s.rom := rfl

@[simp] theorem setA_a (v : Byte) (s : State) : (setA v s).a = v := rfl
@[simp] theorem setA_x (v : Byte) (s : State) : (setA v s).x = s.x := rfl
@[simp] theorem setA_y (v : Byte) (s : State) : (setA v s).y = s.y := rfl
@[simp] theorem setA_sp (v : Byte) (s : State) : (setA v s).sp = s.sp := rfl
@[simp] theorem setA_pc (v : Byte) (s : State) : (setA v s).pc = s.pc := rfl
@[simp] theorem setA_p (v : Byte) (s : State) : (setA v s).p = setZN v s.p := rfl
@[simp] theorem setA_ir (v : Byte) (s : State) : (setA v s).ir = s.ir := rfl
@[simp] theorem setA_halted (v : Byte) (s : State) : (setA v s).halted = s.halted := rfl
@[simp] theorem setA_fault (v : Byte) (s : State) : (setA v s).fault = s.fault := rfl
@[simp] theorem setA_ram (v : Byte) (s : State) : (setA v s).ram = s.ram := rfl
@[simp] theorem setA_rom (v : Byte) (s : State) : (setA v s).rom = s.rom := rfl

@[simp] theorem setX_a (v : Byte) (s : State) : (setX v s).a = s.a := rfl
@[simp] theorem setX_x (v : Byte) (s : State) : (setX v s).x = v := rfl
@[simp] theorem setX_y (v : Byte) (s : State) : (setX v s).y = s.y := rfl
@[simp] theorem setX_sp (v : Byte) (s : State) : (setX v s).sp = s.sp := rfl
@[simp] theorem setX_pc (v : Byte) (s : State) : (setX v s).pc = s.pc := rfl
@[simp] theorem setX_p (v : Byte) (s : State) : (setX v s).p = setZN v s.p := rfl
@[simp] theorem setX_ir (v : Byte) (s : State) : (setX v s).ir = s.ir := rfl
@[simp] theorem setX_halted (v : Byte) (s : State) : (setX v s).halted = s.halted := rfl
@[simp] theorem setX_fault (v : Byte) (s : State) : (setX v s).fault = s.fault := rfl
@[simp] theorem setX_ram (v : Byte) (s : State) : (setX v s).ram = s.ram := rfl
@[simp] theorem setX_rom (v : Byte) (s : State) : (setX v s).rom = s.rom := rfl

@[simp] theorem setY_a (v : Byte) (s : State) : (setY v s).a = s.a := rfl
@[simp] theorem setY_x (v : Byte) (s : State) : (setY v s).x = s.x := rfl
@[simp] theorem setY_y (v : Byte) (s : State) : (setY v s).y = v := rfl
@[simp] theorem setY_sp (v : Byte) (s : State) : (setY v s).sp = s.sp := rfl
@[simp] theorem setY_pc (v : Byte) (s : State) : (setY v s).pc = s.pc := rfl
@[simp] theorem setY_p (v : Byte) (s : State) : (setY v s).p = setZN v s.p := rfl
@[simp] theorem setY_ir (v : Byte) (s : State) : (setY v s).ir = s.ir := rfl
@[simp] theorem setY_halted (v : Byte) (s : State) : (setY v s).halted = s.halted := rfl
@[simp] theorem setY_fault (v : Byte) (s : State) : (setY v s).fault = s.fault := rfl
@[simp] theorem setY_ram (v : Byte) (s : State) : (setY v s).ram = s.ram := rfl
@[simp] theorem setY_rom (v : Byte) (s : State) : (setY v s).rom = s.rom := rfl

@[simp] theorem setFlag_a (f : Flag) (v : Bool) (s : State) : (setFlag f v s).a = s.a := rfl
@[simp] theorem setFlag_x (f : Flag) (v : Bool) (s : State) : (setFlag f v s).x = s.x := rfl
@[simp] theorem setFlag_y (f : Flag) (v : Bool) (s : State) : (setFlag f v s).y = s.y := rfl
@[simp] theorem setFlag_sp (f : Flag) (v : Bool) (s : State) : (setFlag f v s).sp = s.sp := rfl
@[simp] theorem setFlag_pc (f : Flag) (v : Bool) (s : State) : (setFlag f v s).pc = s.pc := rfl
@[simp] theorem setFlag_p (f : Flag) (v : Bool) (s : State) : (setFlag f v s).p = putFlag f v s.p := rfl
@[simp] theorem setFlag_ir (f : Flag) (v : Bool) (s : State) : (setFlag f v s).ir = s.ir := rfl
@[simp] theorem setFlag_halted (f : Flag) (v : Bool) (s : State) : (setFlag f v s).halted = s.halted := rfl
@[simp] theorem setFlag_fault (f : Flag) (v : Bool) (s : State) : (setFlag f v s).fault = s.fault := rfl
@[simp] theorem setFlag_ram (f : Flag) (v : Bool) (s : State) : (setFlag f v s).ram = s.ram := rfl
@[simp] theorem setFlag_rom (f : Flag) (v : Bool) (s : State) : (setFlag f v s).rom = s.rom := rfl

@[simp] theorem compareReg_a (reg m : Byte) (s : State) : (compareReg reg m s).a = s.a := rfl
@[simp] theorem compareReg_x (reg m : Byte) (s : State) : (compareReg reg m s).x = s.x := rfl
@[simp] theorem compareReg_y (reg m : Byte) (s : State) : (compareReg reg m s).y = s.y := rfl
@[simp] theorem compareReg_sp (reg m : Byte) (s : State) : (compareReg reg m s).sp = s.sp := rfl
@[simp] theorem compareReg_pc (reg m : Byte) (s : State) : (compareReg reg m s).pc = s.pc := rfl
@[simp] theorem compareReg_p (reg m : Byte) (s : State) : (compareReg reg m s).p = compareFlags reg m s.p := rfl
@[simp] theorem compareReg_ir (reg m : Byte) (s : State) : (compareReg reg m s).ir = s.ir := rfl
@[simp] theorem compareReg_halted (reg m : Byte) (s : State) : (compareReg reg m s).halted = s.halted := rfl
@[simp] theorem compareReg_fault (reg m : Byte) (s : State) : (compareReg reg m s).fault = s.fault := rfl
@[simp] theorem compareReg_ram (reg m : Byte) (s : State) : (compareReg reg m s).ram = s.ram := rfl
@[simp] theorem compareReg_rom (reg m : Byte) (s : State) : (compareReg reg m s).rom = s.rom := rfl

@[simp] theorem bitTest_a (m : Byte) (s : State) : (bitTest m s).a = s.a := rfl
@[simp] theorem bitTest_x (m : Byte) (s : State) : (bitTest m s).x = s.x := rfl
@[simp] theorem bitTest_y (m : Byte) (s : State) : (bitTest m s).y = s.y := rfl
@[simp] theorem bitTest_sp (m : Byte) (s : State) : (bitTest m s).sp = s.sp := rfl
@[simp] theorem bitTest_pc (m : Byte) (s : State) : (bitTest m s).pc = s.pc := rfl
@[simp] theorem bitTest_p (m : Byte) (s : State) : (bitTest m s).p = bitFlags s.a m s.p := rfl
@[simp] theorem bitTest_ir (m : Byte) (s : State) : (bitTest m s).ir = s.ir := rfl
@[simp] theorem bitTest_halted (m : Byte) (s : State) : (bitTest m s).halted = s.halted := rfl
@[simp] theorem bitTest_fault (m : Byte) (s : State) : (bitTest m s).fault = s.fault := rfl
@[simp] theorem bitTest_ram (m : Byte) (s : State) : (bitTest m s).ram = s.ram := rfl
@[simp] theorem bitTest_rom (m : Byte) (s : State) : (bitTest m s).rom = s.rom := rfl

@[simp] theorem adc_a (m : Byte) (s : State) : (adc m s).a = adcResult s.a m s.p := rfl
@[simp] theorem adc_x (m : Byte) (s : State) : (adc m s).x = s.x := rfl
@[simp] theorem adc_y (m : Byte) (s : State) : (adc m s).y = s.y := rfl
@[simp] theorem adc_sp (m : Byte) (s : State) : (adc m s).sp = s.sp := rfl
@[simp] theorem adc_pc (m : Byte) (s : State) : (adc m s).pc = s.pc := rfl
@[simp] theorem adc_p (m : Byte) (s : State) : (adc m s).p = adcFlags s.a m s.p := rfl
@[simp] theorem adc_ir (m : Byte) (s : State) : (adc m s).ir = s.ir := rfl
@[simp] theorem adc_halted (m : Byte) (s : State) : (adc m s).halted = s.halted := rfl
@[simp] theorem adc_fault (m : Byte) (s : State) : (adc m s).fault = s.fault := rfl
@[simp] theorem adc_ram (m : Byte) (s : State) : (adc m s).ram = s.ram := rfl
@[simp] theorem adc_rom (m : Byte) (s : State) : (adc m s).rom = s.rom := rfl

@[simp] theorem sbc_a (m : Byte) (s : State) : (sbc m s).a = sbcResult s.a m s.p := rfl
@[simp] theorem sbc_x (m : Byte) (s : State) : (sbc m s).x = s.x := rfl
@[simp] theorem sbc_y (m : Byte) (s : State) : (sbc m s).y = s.y := rfl
@[simp] theorem sbc_sp (m : Byte) (s : State) : (sbc m s).sp = s.sp := rfl
@[simp] theorem sbc_pc (m : Byte) (s : State) : (sbc m s).pc = s.pc := rfl
@[simp] theorem sbc_p (m : Byte) (s : State) : (sbc m s).p = sbcFlags s.a m s.p := rfl
@[simp] theorem sbc_ir (m : Byte) (s : State) : (sbc m s).ir = s.ir := rfl
@[simp] theorem sbc_halted (m : Byte) (s : State) : (sbc m s).halted = s.halted := rfl
@[simp] theorem sbc_fault (m : Byte) (s : State) : (sbc m s).fault = s.fault := rfl
@[simp] theorem sbc_ram (m : Byte) (s : State) : (sbc m s).ram = s.ram := rfl
@[simp] theorem sbc_rom (m : Byte) (s : State) : (sbc m s).rom = s.rom := rfl

@[simp] theorem executePhase_a (op : Byte) (s : State) : (executePhase op s).a = s.a := rfl
@[simp] theorem executePhase_x (op : Byte) (s : State) : (executePhase op s).x = s.x := rfl
@[simp] theorem executePhase_y (op : Byte) (s : State) : (executePhase op s).y = s.y := rfl
@[simp] theorem executePhase_sp (op : Byte) (s : State) : (executePhase op s).sp = s.sp := rfl
@[simp] theorem executePhase_pc (op : Byte) (s : State) : (executePhase op s).pc = s.pc + 1 := rfl
@[simp] theorem executePhase_p (op : Byte) (s : State) : (executePhase op s).p = s.p := rfl
@[simp] theorem executePhase_ir (op : Byte) (s : State) : (executePhase op s).ir = op := rfl
@[simp] theorem executePhase_halted (op : Byte) (s : State) : (executePhase op s).halted = s.halted := rfl
@[simp] theorem executePhase_fault (op : Byte) (s : State) : (executePhase op s).fault = s.fault := rfl
@[simp] theorem executePhase_ram (op : Byte) (s : State) : (executePhase op s).ram = s.ram := rfl
@[simp] theorem executePhase_rom (op : Byte) (s : State) : (executePhase op s).rom = s.rom := rfl

/-- An instruction without operand bytes adds no advance (R93). -/
@[simp] theorem advance_none (s : State) : advance .none s = s := by simp [advance, Operand.size, Operand.mode, Mode.length]

end Sys2Proof.Machine
end

