-- ==== Sys2Proof/Laws/Access.lean ====
section
/-! SUPPORT. The address map: which windows read what, where the stack and page 0 lie, and what a store leaves. -/

namespace Sys2Proof.Machine

/-- A read of the RAM window (R52, R55). -/
theorem readByte_of_inRam {addr : Word} (h : inRam addr = true) (s : State) : readByte addr s = .ok (ramByte addr s) := by
  simp [readByte, h]

/-- A read depends on RAM and on the ROM record only. -/
theorem readByte_congr {s t : State} (hr : t.ram = s.ram) (hm : t.rom = s.rom) (addr : Word) :
    readByte addr t = readByte addr s := by
  simp [readByte, ramByte, hr, hm]

theorem ramByte_congr {s t : State} (hr : t.ram = s.ram) (addr : Word) : ramByte addr t = ramByte addr s := by
  simp [ramByte, hr]

/-- Page 0 lies in the RAM window (R55). -/
theorem inRam_zext16 (b : Byte) : inRam (zext16 b) = true := by
  have h := b.isLt
  simp only [inRam, zext16, Config.ramLast, BitVec.toNat_setWidth, decide_eq_true_eq]
  omega

/-- Page 1 lies in the RAM window (R43). -/
theorem inRam_stackAddr (sp : Byte) : inRam (stackAddr sp) = true := by
  have h := sp.isLt
  have hp : Config.stackPage.toNat = 256 := rfl
  simp only [inRam, stackAddr, zext16, Config.ramLast, BitVec.toNat_add, BitVec.toNat_setWidth, decide_eq_true_eq, hp]
  omega

/-- The physical index of a stack address (R43, R55). -/
theorem ramIndex_stackAddr (sp : Byte) : ramIndex (stackAddr sp) = 0x100 + sp.toNat := by
  have h : ∀ b : Byte, ramIndex (stackAddr b) = 0x100 + b.toNat := by decide
  exact h sp

/-- The physical index of a zero-page address (R55). -/
theorem ramIndex_zext16 (b : Byte) : ramIndex (zext16 b) = b.toNat := by
  have h : ∀ b : Byte, ramIndex (zext16 b) = b.toNat := by decide
  exact h b

@[simp] theorem writeByte_ram_of_inRam {addr : Word} (h : inRam addr = true) (v : Byte) (s : State) :
    (writeByte addr v s).ram = s.ram.write (ramIndex addr) v := by
  simp [writeByte, h]

/-- Every store keeps the canonical form of RAM. -/
theorem writeByte_ram_wf {s : State} (h : s.ram.wf = true) (addr : Word) (v : Byte) : (writeByte addr v s).ram.wf = true := by
  unfold writeByte
  split
  · exact Memory.wf_write h
  · exact h

/-- Every store keeps RAM inside its size. -/
theorem writeByte_ram_below {s : State} (h : s.ram.below Config.ramSize = true) (addr : Word) (v : Byte) :
    (writeByte addr v s).ram.below Config.ramSize = true := by
  unfold writeByte
  split
  · exact Memory.below_write (ramIndex_lt addr) h
  · exact h

theorem push_ram (v : Byte) (s : State) : (push v s).ram = (writeByte (stackAddr s.sp) v s).ram := rfl

theorem push_ram_wf {s : State} (h : s.ram.wf = true) (v : Byte) : (push v s).ram.wf = true :=
  writeByte_ram_wf h _ _

theorem push_ram_below {s : State} (h : s.ram.below Config.ramSize = true) (v : Byte) :
    (push v s).ram.below Config.ramSize = true :=
  writeByte_ram_below h _ _

theorem pushWord_ram_wf {s : State} (h : s.ram.wf = true) (w : Word) : (pushWord w s).ram.wf = true :=
  push_ram_wf (push_ram_wf h _) _

theorem pushWord_ram_below {s : State} (h : s.ram.below Config.ramSize = true) (w : Word) :
    (pushWord w s).ram.below Config.ramSize = true :=
  push_ram_below (push_ram_below h _) _

/-- The number a word of two bytes stands for (R11). -/
theorem toNat_mkWord (hi lo : Byte) : (mkWord hi lo).toNat = hi.toNat * 256 + lo.toNat := by
  have := lo.isLt
  have := hi.isLt
  rw [mkWord, BitVec.toNat_ofNat]
  omega

/-- The bytes of a word put together again. -/
@[simp] theorem mkWord_hiByte_loByte (w : Word) : mkWord (hiByte w) (loByte w) = w := by
  apply BitVec.eq_of_toNat_eq
  have h := w.isLt
  rw [toNat_mkWord]
  simp [hiByte, loByte, Nat.shiftRight_eq_div_pow]
  omega

@[simp] theorem loByte_mkWord (hi lo : Byte) : loByte (mkWord hi lo) = lo := by
  apply BitVec.eq_of_toNat_eq
  have := lo.isLt
  simp [loByte, toNat_mkWord]
  omega

@[simp] theorem hiByte_mkWord (hi lo : Byte) : hiByte (mkWord hi lo) = hi := by
  apply BitVec.eq_of_toNat_eq
  have := lo.isLt
  have := hi.isLt
  simp [hiByte, toNat_mkWord, Nat.shiftRight_eq_div_pow]
  omega

end Sys2Proof.Machine
end

