-- ==== Sys2Proof/Laws/Decode.lean ====
section
/-! SUPPORT. The descriptor table: no two rows share an opcode, and each instruction's opcode has its own row. -/

namespace Sys2Proof

theorem descriptors_length : descriptors.length = 151 := by decide +kernel

/-- No two descriptors share an opcode byte: the decoder's first match is the only one (R92). -/
theorem descriptors_disjoint : (descriptors.map Row.opcode).Nodup := by decide +kernel

/-- The descriptor of an instruction's opcode byte has its mnemonic and its mode (R92). -/
theorem descriptor_opcode (i : Instr) :
    ∃ r, descriptor i.opcode = some r ∧ r.mnemonic = i.mnemonic ∧ r.mode = i.mode := by
  have h : (descriptor i.opcode).map (fun r => (r.mnemonic, r.mode)) = some (i.mnemonic, i.mode) := by
    cases i <;>
      simp [descriptor, opcodeMap, Instr.opcode, opcodes0x, opcodes1x, opcodes2x, opcodes3x, opcodes4x, opcodes5x,
        opcodes6x, opcodes7x, opcodes8x, opcodes9x, opcodesAx, opcodesBx, opcodesCx, opcodesDx, opcodesEx, opcodesFx,
        Instr.mnemonic, Instr.mode, Instr.operand, Operand.mode]
  obtain ⟨r, hr, hm⟩ := Option.map_eq_some_iff.mp h
  exact ⟨r, hr, congrArg Prod.fst hm, congrArg Prod.snd hm⟩

/-- The opcode byte decides the descriptor: a found row has the opcode asked for. -/
theorem descriptor_some {op : Byte} {r : Row} (h : descriptor op = some r) : r.opcode = op := by
  simpa using List.find?_some (show List.find? _ _ = some r from h)

end Sys2Proof
end

