-- ==== Sys2Proof/Laws/Flags.lean ====
section
/-! SUPPORT. The flags of P are eight independent bits: what each flag computation writes and keeps. -/

namespace Sys2Proof.Machine

/-- Writing a flag sets it and keeps the seven others (R26). -/
theorem getFlag_putFlag (f g : Flag) (v : Bool) (p : Byte) :
    getFlag f (putFlag g v p) = if f = g then v else getFlag f p := by
  cases f <;> cases g <;> cases v <;> simp [getFlag, putFlag, Flag.bit]

@[simp] theorem getFlag_putFlag_self (f : Flag) (v : Bool) (p : Byte) : getFlag f (putFlag f v p) = v := by
  simp [getFlag_putFlag]

theorem getFlag_putFlag_other {f g : Flag} (h : f ≠ g) (v : Bool) (p : Byte) :
    getFlag f (putFlag g v p) = getFlag f p := by
  simp [getFlag_putFlag, h]

/-- What SetZN writes, and that it keeps every other flag (R35). -/
theorem getFlag_setZN (f : Flag) (r p : Byte) :
    getFlag f (setZN r p) = if f = .n then r.getLsbD 7 else if f = .z then r == 0 else getFlag f p := by
  simp [setZN, getFlag_putFlag]

/-- The pushed copy of P has B and U set and the other flags of P (R187). -/
theorem getFlag_pushedStatus (f : Flag) (p : Byte) :
    getFlag f (pushedStatus p) = (f = .b || f = .u || getFlag f p) := by
  have h : (0x30 : Byte) = BitVec.ofNat 8 0x30 := rfl
  cases f <;> simp [getFlag, pushedStatus, Flag.bit, h]

/-- A restored P has B clear, U set and the other flags as pulled (R189, R204). -/
theorem getFlag_restoredStatus (f : Flag) (v : Byte) :
    getFlag f (restoredStatus v) = (f = .u || (f ≠ .b && getFlag f v)) := by
  cases f <;> simp [getFlag, restoredStatus, Flag.bit]

/-- Two status bytes with the same eight flags are equal (R26). -/
theorem status_ext {p q : Byte} (h : ∀ f, getFlag f p = getFlag f q) : p = q := by
  apply BitVec.eq_of_getLsbD_eq
  intro i hi
  have hc := h .c
  have hz := h .z
  have hi' := h .i
  have hd := h .d
  have hb := h .b
  have hu := h .u
  have hv := h .v
  have hn := h .n
  simp only [getFlag, Flag.bit] at hc hz hi' hd hb hu hv hn
  match i, hi with
  | 0, _ => exact hc
  | 1, _ => exact hz
  | 2, _ => exact hi'
  | 3, _ => exact hd
  | 4, _ => exact hb
  | 5, _ => exact hu
  | 6, _ => exact hv
  | 7, _ => exact hn

theorem carryNat_le (p : Byte) : carryNat p ≤ 1 := by
  unfold carryNat
  cases getFlag .c p <;> decide

end Sys2Proof.Machine
end

