-- ==== Sys2Proof/Laws/PerInstr.lean ====
section
/-! SUPPORT. Statements made per instruction, one lemma per constructor of Instr. -/

namespace Sys2Proof.Laws.EncodedLength

/-- The encoder writes as many bytes as the descriptor's length says, and the instruction is well-formed (R90, R95). -/
def Statement (i : Instr) : Prop := (encode i).length = i.length ∧ i.wellFormed = true

theorem adcImm (imm : Byte) : Statement (.adcImm imm) := ⟨rfl, rfl⟩
theorem adcZp (zp : Byte) : Statement (.adcZp zp) := ⟨rfl, rfl⟩
theorem adcZpX (zp : Byte) : Statement (.adcZpX zp) := ⟨rfl, rfl⟩
theorem adcAbs (addr : Word) : Statement (.adcAbs addr) := ⟨rfl, rfl⟩
theorem adcAbsX (addr : Word) : Statement (.adcAbsX addr) := ⟨rfl, rfl⟩
theorem adcAbsY (addr : Word) : Statement (.adcAbsY addr) := ⟨rfl, rfl⟩
theorem adcIndX (zp : Byte) : Statement (.adcIndX zp) := ⟨rfl, rfl⟩
theorem adcIndY (zp : Byte) : Statement (.adcIndY zp) := ⟨rfl, rfl⟩
theorem sbcImm (imm : Byte) : Statement (.sbcImm imm) := ⟨rfl, rfl⟩
theorem sbcZp (zp : Byte) : Statement (.sbcZp zp) := ⟨rfl, rfl⟩
theorem sbcZpX (zp : Byte) : Statement (.sbcZpX zp) := ⟨rfl, rfl⟩
theorem sbcAbs (addr : Word) : Statement (.sbcAbs addr) := ⟨rfl, rfl⟩
theorem sbcAbsX (addr : Word) : Statement (.sbcAbsX addr) := ⟨rfl, rfl⟩
theorem sbcAbsY (addr : Word) : Statement (.sbcAbsY addr) := ⟨rfl, rfl⟩
theorem sbcIndX (zp : Byte) : Statement (.sbcIndX zp) := ⟨rfl, rfl⟩
theorem sbcIndY (zp : Byte) : Statement (.sbcIndY zp) := ⟨rfl, rfl⟩
theorem aslA : Statement (.aslA) := ⟨rfl, rfl⟩
theorem aslZp (zp : Byte) : Statement (.aslZp zp) := ⟨rfl, rfl⟩
theorem aslZpX (zp : Byte) : Statement (.aslZpX zp) := ⟨rfl, rfl⟩
theorem aslAbs (addr : Word) : Statement (.aslAbs addr) := ⟨rfl, rfl⟩
theorem aslAbsX (addr : Word) : Statement (.aslAbsX addr) := ⟨rfl, rfl⟩
theorem lsrA : Statement (.lsrA) := ⟨rfl, rfl⟩
theorem lsrZp (zp : Byte) : Statement (.lsrZp zp) := ⟨rfl, rfl⟩
theorem lsrZpX (zp : Byte) : Statement (.lsrZpX zp) := ⟨rfl, rfl⟩
theorem lsrAbs (addr : Word) : Statement (.lsrAbs addr) := ⟨rfl, rfl⟩
theorem lsrAbsX (addr : Word) : Statement (.lsrAbsX addr) := ⟨rfl, rfl⟩
theorem rolA : Statement (.rolA) := ⟨rfl, rfl⟩
theorem rolZp (zp : Byte) : Statement (.rolZp zp) := ⟨rfl, rfl⟩
theorem rolZpX (zp : Byte) : Statement (.rolZpX zp) := ⟨rfl, rfl⟩
theorem rolAbs (addr : Word) : Statement (.rolAbs addr) := ⟨rfl, rfl⟩
theorem rolAbsX (addr : Word) : Statement (.rolAbsX addr) := ⟨rfl, rfl⟩
theorem rorA : Statement (.rorA) := ⟨rfl, rfl⟩
theorem rorZp (zp : Byte) : Statement (.rorZp zp) := ⟨rfl, rfl⟩
theorem rorZpX (zp : Byte) : Statement (.rorZpX zp) := ⟨rfl, rfl⟩
theorem rorAbs (addr : Word) : Statement (.rorAbs addr) := ⟨rfl, rfl⟩
theorem rorAbsX (addr : Word) : Statement (.rorAbsX addr) := ⟨rfl, rfl⟩
theorem cmpImm (imm : Byte) : Statement (.cmpImm imm) := ⟨rfl, rfl⟩
theorem cmpZp (zp : Byte) : Statement (.cmpZp zp) := ⟨rfl, rfl⟩
theorem cmpZpX (zp : Byte) : Statement (.cmpZpX zp) := ⟨rfl, rfl⟩
theorem cmpAbs (addr : Word) : Statement (.cmpAbs addr) := ⟨rfl, rfl⟩
theorem cmpAbsX (addr : Word) : Statement (.cmpAbsX addr) := ⟨rfl, rfl⟩
theorem cmpAbsY (addr : Word) : Statement (.cmpAbsY addr) := ⟨rfl, rfl⟩
theorem cmpIndX (zp : Byte) : Statement (.cmpIndX zp) := ⟨rfl, rfl⟩
theorem cmpIndY (zp : Byte) : Statement (.cmpIndY zp) := ⟨rfl, rfl⟩
theorem cpxImm (imm : Byte) : Statement (.cpxImm imm) := ⟨rfl, rfl⟩
theorem cpxZp (zp : Byte) : Statement (.cpxZp zp) := ⟨rfl, rfl⟩
theorem cpxAbs (addr : Word) : Statement (.cpxAbs addr) := ⟨rfl, rfl⟩
theorem cpyImm (imm : Byte) : Statement (.cpyImm imm) := ⟨rfl, rfl⟩
theorem cpyZp (zp : Byte) : Statement (.cpyZp zp) := ⟨rfl, rfl⟩
theorem cpyAbs (addr : Word) : Statement (.cpyAbs addr) := ⟨rfl, rfl⟩
theorem incZp (zp : Byte) : Statement (.incZp zp) := ⟨rfl, rfl⟩
theorem incZpX (zp : Byte) : Statement (.incZpX zp) := ⟨rfl, rfl⟩
theorem incAbs (addr : Word) : Statement (.incAbs addr) := ⟨rfl, rfl⟩
theorem incAbsX (addr : Word) : Statement (.incAbsX addr) := ⟨rfl, rfl⟩
theorem decZp (zp : Byte) : Statement (.decZp zp) := ⟨rfl, rfl⟩
theorem decZpX (zp : Byte) : Statement (.decZpX zp) := ⟨rfl, rfl⟩
theorem decAbs (addr : Word) : Statement (.decAbs addr) := ⟨rfl, rfl⟩
theorem decAbsX (addr : Word) : Statement (.decAbsX addr) := ⟨rfl, rfl⟩
theorem inx : Statement (.inx) := ⟨rfl, rfl⟩
theorem iny : Statement (.iny) := ⟨rfl, rfl⟩
theorem dex : Statement (.dex) := ⟨rfl, rfl⟩
theorem dey : Statement (.dey) := ⟨rfl, rfl⟩
theorem andImm (imm : Byte) : Statement (.andImm imm) := ⟨rfl, rfl⟩
theorem andZp (zp : Byte) : Statement (.andZp zp) := ⟨rfl, rfl⟩
theorem andZpX (zp : Byte) : Statement (.andZpX zp) := ⟨rfl, rfl⟩
theorem andAbs (addr : Word) : Statement (.andAbs addr) := ⟨rfl, rfl⟩
theorem andAbsX (addr : Word) : Statement (.andAbsX addr) := ⟨rfl, rfl⟩
theorem andAbsY (addr : Word) : Statement (.andAbsY addr) := ⟨rfl, rfl⟩
theorem andIndX (zp : Byte) : Statement (.andIndX zp) := ⟨rfl, rfl⟩
theorem andIndY (zp : Byte) : Statement (.andIndY zp) := ⟨rfl, rfl⟩
theorem oraImm (imm : Byte) : Statement (.oraImm imm) := ⟨rfl, rfl⟩
theorem oraZp (zp : Byte) : Statement (.oraZp zp) := ⟨rfl, rfl⟩
theorem oraZpX (zp : Byte) : Statement (.oraZpX zp) := ⟨rfl, rfl⟩
theorem oraAbs (addr : Word) : Statement (.oraAbs addr) := ⟨rfl, rfl⟩
theorem oraAbsX (addr : Word) : Statement (.oraAbsX addr) := ⟨rfl, rfl⟩
theorem oraAbsY (addr : Word) : Statement (.oraAbsY addr) := ⟨rfl, rfl⟩
theorem oraIndX (zp : Byte) : Statement (.oraIndX zp) := ⟨rfl, rfl⟩
theorem oraIndY (zp : Byte) : Statement (.oraIndY zp) := ⟨rfl, rfl⟩
theorem eorImm (imm : Byte) : Statement (.eorImm imm) := ⟨rfl, rfl⟩
theorem eorZp (zp : Byte) : Statement (.eorZp zp) := ⟨rfl, rfl⟩
theorem eorZpX (zp : Byte) : Statement (.eorZpX zp) := ⟨rfl, rfl⟩
theorem eorAbs (addr : Word) : Statement (.eorAbs addr) := ⟨rfl, rfl⟩
theorem eorAbsX (addr : Word) : Statement (.eorAbsX addr) := ⟨rfl, rfl⟩
theorem eorAbsY (addr : Word) : Statement (.eorAbsY addr) := ⟨rfl, rfl⟩
theorem eorIndX (zp : Byte) : Statement (.eorIndX zp) := ⟨rfl, rfl⟩
theorem eorIndY (zp : Byte) : Statement (.eorIndY zp) := ⟨rfl, rfl⟩
theorem bitZp (zp : Byte) : Statement (.bitZp zp) := ⟨rfl, rfl⟩
theorem bitAbs (addr : Word) : Statement (.bitAbs addr) := ⟨rfl, rfl⟩
theorem ldaImm (imm : Byte) : Statement (.ldaImm imm) := ⟨rfl, rfl⟩
theorem ldaZp (zp : Byte) : Statement (.ldaZp zp) := ⟨rfl, rfl⟩
theorem ldaZpX (zp : Byte) : Statement (.ldaZpX zp) := ⟨rfl, rfl⟩
theorem ldaAbs (addr : Word) : Statement (.ldaAbs addr) := ⟨rfl, rfl⟩
theorem ldaAbsX (addr : Word) : Statement (.ldaAbsX addr) := ⟨rfl, rfl⟩
theorem ldaAbsY (addr : Word) : Statement (.ldaAbsY addr) := ⟨rfl, rfl⟩
theorem ldaIndX (zp : Byte) : Statement (.ldaIndX zp) := ⟨rfl, rfl⟩
theorem ldaIndY (zp : Byte) : Statement (.ldaIndY zp) := ⟨rfl, rfl⟩
theorem ldxImm (imm : Byte) : Statement (.ldxImm imm) := ⟨rfl, rfl⟩
theorem ldxZp (zp : Byte) : Statement (.ldxZp zp) := ⟨rfl, rfl⟩
theorem ldxZpY (zp : Byte) : Statement (.ldxZpY zp) := ⟨rfl, rfl⟩
theorem ldxAbs (addr : Word) : Statement (.ldxAbs addr) := ⟨rfl, rfl⟩
theorem ldxAbsY (addr : Word) : Statement (.ldxAbsY addr) := ⟨rfl, rfl⟩
theorem ldyImm (imm : Byte) : Statement (.ldyImm imm) := ⟨rfl, rfl⟩
theorem ldyZp (zp : Byte) : Statement (.ldyZp zp) := ⟨rfl, rfl⟩
theorem ldyZpX (zp : Byte) : Statement (.ldyZpX zp) := ⟨rfl, rfl⟩
theorem ldyAbs (addr : Word) : Statement (.ldyAbs addr) := ⟨rfl, rfl⟩
theorem ldyAbsX (addr : Word) : Statement (.ldyAbsX addr) := ⟨rfl, rfl⟩
theorem staZp (zp : Byte) : Statement (.staZp zp) := ⟨rfl, rfl⟩
theorem staZpX (zp : Byte) : Statement (.staZpX zp) := ⟨rfl, rfl⟩
theorem staAbs (addr : Word) : Statement (.staAbs addr) := ⟨rfl, rfl⟩
theorem staAbsX (addr : Word) : Statement (.staAbsX addr) := ⟨rfl, rfl⟩
theorem staAbsY (addr : Word) : Statement (.staAbsY addr) := ⟨rfl, rfl⟩
theorem staIndX (zp : Byte) : Statement (.staIndX zp) := ⟨rfl, rfl⟩
theorem staIndY (zp : Byte) : Statement (.staIndY zp) := ⟨rfl, rfl⟩
theorem stxZp (zp : Byte) : Statement (.stxZp zp) := ⟨rfl, rfl⟩
theorem stxZpY (zp : Byte) : Statement (.stxZpY zp) := ⟨rfl, rfl⟩
theorem stxAbs (addr : Word) : Statement (.stxAbs addr) := ⟨rfl, rfl⟩
theorem styZp (zp : Byte) : Statement (.styZp zp) := ⟨rfl, rfl⟩
theorem styZpX (zp : Byte) : Statement (.styZpX zp) := ⟨rfl, rfl⟩
theorem styAbs (addr : Word) : Statement (.styAbs addr) := ⟨rfl, rfl⟩
theorem tax : Statement (.tax) := ⟨rfl, rfl⟩
theorem tay : Statement (.tay) := ⟨rfl, rfl⟩
theorem txa : Statement (.txa) := ⟨rfl, rfl⟩
theorem tya : Statement (.tya) := ⟨rfl, rfl⟩
theorem tsx : Statement (.tsx) := ⟨rfl, rfl⟩
theorem txs : Statement (.txs) := ⟨rfl, rfl⟩
theorem pha : Statement (.pha) := ⟨rfl, rfl⟩
theorem php : Statement (.php) := ⟨rfl, rfl⟩
theorem pla : Statement (.pla) := ⟨rfl, rfl⟩
theorem plp : Statement (.plp) := ⟨rfl, rfl⟩
theorem jmpAbs (addr : Word) : Statement (.jmpAbs addr) := ⟨rfl, rfl⟩
theorem jmpInd (ptr : Word) : Statement (.jmpInd ptr) := ⟨rfl, rfl⟩
theorem jsr (addr : Word) : Statement (.jsr addr) := ⟨rfl, rfl⟩
theorem rts : Statement (.rts) := ⟨rfl, rfl⟩
theorem rti : Statement (.rti) := ⟨rfl, rfl⟩
theorem bcc (off : Byte) : Statement (.bcc off) := ⟨rfl, rfl⟩
theorem bcs (off : Byte) : Statement (.bcs off) := ⟨rfl, rfl⟩
theorem beq (off : Byte) : Statement (.beq off) := ⟨rfl, rfl⟩
theorem bne (off : Byte) : Statement (.bne off) := ⟨rfl, rfl⟩
theorem bmi (off : Byte) : Statement (.bmi off) := ⟨rfl, rfl⟩
theorem bpl (off : Byte) : Statement (.bpl off) := ⟨rfl, rfl⟩
theorem bvc (off : Byte) : Statement (.bvc off) := ⟨rfl, rfl⟩
theorem bvs (off : Byte) : Statement (.bvs off) := ⟨rfl, rfl⟩
theorem brk : Statement (.brk) := ⟨rfl, rfl⟩
theorem clc : Statement (.clc) := ⟨rfl, rfl⟩
theorem sec : Statement (.sec) := ⟨rfl, rfl⟩
theorem cli : Statement (.cli) := ⟨rfl, rfl⟩
theorem sei : Statement (.sei) := ⟨rfl, rfl⟩
theorem cld : Statement (.cld) := ⟨rfl, rfl⟩
theorem sed : Statement (.sed) := ⟨rfl, rfl⟩
theorem clv : Statement (.clv) := ⟨rfl, rfl⟩
theorem nop : Statement (.nop) := ⟨rfl, rfl⟩

end Sys2Proof.Laws.EncodedLength
end

