-- ==== Sys2Proof/Laws/Shapes.lean ====
section
/-! SUPPORT. What each shared shape of an instruction can do, said once: its answer when the read succeeds, its answer
when the read faults, and the inversion of a next state. -/

namespace Sys2Proof.Machine

/-- A byte read faults only with prgOutOfRange, and for its own address (R52). -/
theorem readByte_fault {addr a : Word} {k : Fault} {s : State} (h : readByte addr s = .fault k a) :
    k = .prgOutOfRange ∧ a = addr := by
  unfold readByte at h
  split at h
  · cases h
  · split at h
    · cases h
    · split at h
      · cases h
      · cases h
        exact ⟨rfl, rfl⟩

/-- A word read is the two byte reads, low byte first (R60). -/
theorem readWord_ok {addr w : Word} {s : State} (h : readWord addr s = .ok w) :
    ∃ lo hi, readByte addr s = .ok lo ∧ readByte (addr + 1) s = .ok hi ∧ w = mkWord hi lo := by
  unfold readWord at h
  cases h1 : readByte addr s with
  | fault k a =>
    rw [h1] at h
    cases h
  | ok lo =>
    rw [h1] at h
    cases h2 : readByte (addr + 1) s with
    | fault k a =>
      simp only [Access.bind] at h
      rw [h2] at h
      cases h
    | ok hi =>
      simp only [Access.bind] at h
      rw [h2] at h
      cases h
      exact ⟨lo, hi, rfl, rfl, rfl⟩

@[simp] theorem Access.run_ok {α : Type} (v : α) (s : State) (k : α → Out) : (Access.ok v).run s k = k v := rfl

@[simp] theorem Access.run_fault {α : Type} (f : Fault) (addr : Word) (s : State) (k : α → Out) :
    (Access.fault f addr : Access α).run s k = .next (raise f addr s) := rfl

@[simp] theorem Access.bind_ok {α β : Type} (v : α) (f : α → Access β) : (Access.ok v).bind f = f v := rfl

@[simp] theorem Access.bind_fault {α β : Type} (k : Fault) (addr : Word) (f : α → Access β) :
    (Access.fault k addr : Access α).bind f = .fault k addr := rfl

theorem withEA_of_ok {o : Operand} {s : State} {addr : Word} (h : ea o s = some (.ok addr)) (k : Word → Out) :
    withEA o s k = k addr := by
  simp [withEA, h]

theorem withEA_of_fault {o : Operand} {s : State} {f : Fault} {addr : Word} (h : ea o s = some (.fault f addr))
    (k : Word → Out) : withEA o s k = .next (raise f addr s) := by
  simp [withEA, h]

theorem readOp_of_ok {o : Operand} {s : State} {m : Byte} (h : operandByte o s = some (.ok m))
    (f : Byte → State → State) : readOp o f s = .next (advance o (f m s)) := by
  simp [readOp, h]

theorem readOp_of_fault {o : Operand} {s : State} {k : Fault} {addr : Word}
    (h : operandByte o s = some (.fault k addr)) (f : Byte → State → State) :
    readOp o f s = .next (raise k addr s) := by
  simp [readOp, h]

theorem storeOp_of_ok {o : Operand} {s : State} {addr : Word} (h : ea o s = some (.ok addr)) (v : Byte) :
    storeOp o v s = .next (advance o (writeByte addr v s)) := by
  simp [storeOp, withEA, h]

theorem rmwOp_of_ok {o : Operand} {s : State} {addr : Word} {v : Byte} (h : ea o s = some (.ok addr))
    (hv : readByte addr s = .ok v) (f : Byte → Byte → Byte × Byte) :
    rmwOp o f s = .next (advance o (writeByte addr (f v s.p).1 { s with p := (f v s.p).2 })) := by
  simp [rmwOp, withEA, h, hv]

theorem rmwOp_of_fault {o : Operand} {s : State} {addr a : Word} {k : Fault} (h : ea o s = some (.ok addr))
    (hv : readByte addr s = .fault k a) (f : Byte → Byte → Byte × Byte) :
    rmwOp o f s = .next (raise k a s) := by
  simp [rmwOp, withEA, h, hv]

/-- Everything a use of an effective address can come to. -/
theorem withEA_cases {o : Operand} {s t : State} {k : Word → Out} (h : withEA o s k = .next t) :
    (∃ addr, ea o s = some (.ok addr) ∧ k addr = .next t) ∨
    (∃ f addr, ea o s = some (.fault f addr) ∧ t = raise f addr s) := by
  unfold withEA at h
  split at h
  · cases h
  · rename_i r hr
    cases r with
    | ok addr => exact .inl ⟨addr, hr, h⟩
    | fault f addr =>
      cases h
      exact .inr ⟨f, addr, hr, rfl⟩

/-- Everything an operand read can come to. -/
theorem readOp_cases {o : Operand} {f : Byte → State → State} {s t : State} (h : readOp o f s = .next t) :
    (∃ m, operandByte o s = some (.ok m) ∧ t = advance o (f m s)) ∨
    (∃ k addr, operandByte o s = some (.fault k addr) ∧ t = raise k addr s) := by
  unfold readOp at h
  split at h
  · cases h
  · rename_i r hr
    cases r with
    | ok m =>
      cases h
      exact .inl ⟨m, hr, rfl⟩
    | fault k addr =>
      cases h
      exact .inr ⟨k, addr, hr, rfl⟩

/-- Everything a store can come to. -/
theorem storeOp_cases {o : Operand} {v : Byte} {s t : State} (h : storeOp o v s = .next t) :
    (∃ addr, ea o s = some (.ok addr) ∧ t = advance o (writeByte addr v s)) ∨
    (∃ f addr, ea o s = some (.fault f addr) ∧ t = raise f addr s) := by
  obtain ⟨addr, ha, hk⟩ | hf := withEA_cases h
  · cases hk
    exact .inl ⟨addr, ha, rfl⟩
  · exact .inr hf

/-- Everything a read-modify-write can come to. -/
theorem rmwOp_cases {o : Operand} {f : Byte → Byte → Byte × Byte} {s t : State} (h : rmwOp o f s = .next t) :
    (∃ addr v, ea o s = some (.ok addr) ∧ readByte addr s = .ok v ∧
      t = advance o (writeByte addr (f v s.p).1 { s with p := (f v s.p).2 })) ∨
    (∃ k addr, t = raise k addr s) := by
  obtain ⟨addr, ha, hk⟩ | ⟨k, addr, _, ht⟩ := withEA_cases h
  · cases hv : readByte addr s with
    | ok v =>
      rw [hv] at hk
      cases hk
      exact .inl ⟨addr, v, ha, hv, rfl⟩
    | fault k a =>
      rw [hv] at hk
      cases hk
      exact .inr ⟨k, a, rfl⟩
  · exact .inr ⟨k, addr, ht⟩

/-- Everything JSR can come to. -/
theorem execJsr_cases {addr : Word} {s t : State} (h : execJsr addr s = .next t) :
    (∃ hit, jsrOverlap s = some hit ∧ t = raise .stackOverlapsOperand hit s) ∨
    (jsrOverlap s = none ∧ t = { jsrPush s with pc := addr }) := by
  unfold execJsr at h
  split at h
  · rename_i hit hh
    cases h
    exact .inl ⟨hit, hh, rfl⟩
  · rename_i hh
    cases h
    exact .inr ⟨hh, rfl⟩

end Sys2Proof.Machine
end

