-- ==== Sys2Proof/Laws/Step.lean ====
section
/-! SUPPORT. What a fetch and a step can do, said once. -/

namespace Sys2Proof.Machine

/-- Everything a fetch that gives an instruction has read (R91, R92). -/
theorem fetch_instr {s t : State} {i : Instr} (h : fetch s = .instr i t) :
    ∃ op row, readByte s.pc s = .ok op ∧ descriptor op = some row ∧ t = executePhase op s ∧
      fetchOperand row.template t = .ok i := by
  unfold fetch at h
  cases ho : readByte s.pc s with
  | fault k a =>
    rw [ho] at h
    cases h
  | ok op =>
    rw [ho] at h
    cases hd : descriptor op with
    | none =>
      simp only [hd] at h
      cases h
    | some row =>
      simp only [hd] at h
      cases hf : fetchOperand row.template (executePhase op s) with
      | fault k a =>
        simp only [hf] at h
        cases h
      | ok j =>
        simp only [hf] at h
        cases h
        exact ⟨op, row, rfl, hd, rfl, hf⟩

/-- Everything a fetch that stops has read (R240 to R242, R246). -/
theorem fetch_stopped {s t : State} (h : fetch s = .stopped t) :
    (∃ k addr, readByte s.pc s = .fault k addr ∧ t = raiseAt s.pc k addr s) ∨
    (∃ op, readByte s.pc s = .ok op ∧ descriptor op = none ∧
      t = raise .illegalOpcode s.pc (executePhase op s)) ∨
    (∃ op row k addr, readByte s.pc s = .ok op ∧ descriptor op = some row ∧
      fetchOperand row.template (executePhase op s) = .fault k addr ∧
      t = operandFault row.mnemonic k addr (executePhase op s)) := by
  unfold fetch at h
  cases ho : readByte s.pc s with
  | fault k a =>
    rw [ho] at h
    cases h
    exact .inl ⟨k, a, rfl, rfl⟩
  | ok op =>
    rw [ho] at h
    cases hd : descriptor op with
    | none =>
      simp only [hd] at h
      cases h
      exact .inr (.inl ⟨op, rfl, hd, rfl⟩)
    | some row =>
      simp only [hd] at h
      cases hf : fetchOperand row.template (executePhase op s) with
      | ok j =>
        simp only [hf] at h
        cases h
      | fault k a =>
        simp only [hf] at h
        cases h
        exact .inr (.inr ⟨op, row, k, a, rfl, hd, hf, rfl⟩)

/-- A step of a running core, by what its fetch comes to (R91). -/
theorem step_of_running {s : State} (h : Running s) :
    step s = match fetch s with
      | .instr i t => exec i t
      | .stopped t => .next t := by
  simp only [step, h.1, h.2]
  cases fetch s <;> rfl

/-- A step of a core that is not running answers the same state (R31, R32). -/
theorem step_of_not_running {s : State} (h : ¬Running s) : step s = .next s := by
  have h' : (s.halted || s.fault.isSome) = true := by
    cases hh : s.halted <;> cases hf : s.fault <;> simp_all [Running]
  simp [step, h']

/-- Everything a step can do: nothing, an instruction, or a stop in the fetch. -/
theorem step_cases {s t : State} (h : step s = .next t) :
    (¬Running s ∧ t = s) ∨ (Running s ∧ ∃ i u, fetch s = .instr i u ∧ exec i u = .next t) ∨
    (Running s ∧ fetch s = .stopped t) := by
  by_cases hr : Running s
  · rw [step_of_running hr] at h
    cases hf : fetch s with
    | instr i u =>
      rw [hf] at h
      exact .inr (.inl ⟨hr, i, u, rfl, h⟩)
    | stopped u =>
      rw [hf] at h
      cases h
      exact .inr (.inr ⟨hr, rfl⟩)
  · rw [step_of_not_running hr] at h
    cases h
    exact .inl ⟨hr, rfl⟩

end Sys2Proof.Machine
end

