-- ==== Sys2Proof/Tests/Slice0.lean ====
section
/-! SUPPORT. The model's own tests: refused ill-formed terms, decoding of words written out from the spec's opcode map,
single steps with the spec's own results (V<n> are the vectors of spec/95_test_vectors.md), the host's side, and a
witness for the hypotheses of every obligation that has any. -/

set_option maxRecDepth 10000

namespace Sys2Proof.Tests

open Sys2Proof Sys2Proof.Machine

/-! ### Helpers -/

/-- The vectors' defaults: reset values, PC = 0x8000, a 16 KiB image whose vector is 0x8000 (95, section 0). -/
def base : State :=
  { State.reset with pc := 0x8000, rom := { State.reset.rom with prg := { len := 0x4000, cells := [(0x3FFD, 0x80)] } } }

/-- The defaults with a PRG image of n zero bytes. -/
def withPrg (n : Nat) : State := { base with rom := { base.rom with prg := { len := n, cells := [] } } }

/-- Instruction bytes at an address, and PC there. -/
def code (addr : Word) (bytes : List Byte) (s : State) : State := installBytes addr bytes { s with pc := addr }

/-- Data bytes at their addresses. -/
def holding (data : List (Word × Byte)) (s : State) : State := data.foldl (fun s c => installByte c.1 c.2 s) s

/-- The next state an outcome holds. -/
def nextOf : Out → State
  | .next t => t
  | _ => State.reset

/-- The state after one step. -/
def after (s : State) : State := nextOf (step s)

/-- The instruction a whole byte sequence decodes to. -/
def decoded (bytes : List Byte) : Option Instr :=
  match decode bytes with
  | .ok (i, []) => some i
  | _ => none

/-! ### Well-formedness: a mode the opcode map does not give a mnemonic is refused (R108) -/

theorem test_wf_adc_acc : wellFormedPair .adc .none = false := by decide
theorem test_wf_asl_imm : wellFormedPair .asl (.immediate 0x10) = false := by decide
theorem test_wf_cpx_zpx : wellFormedPair .cpx (.zeroPageX 0x10) = false := by decide
theorem test_wf_inc_acc : wellFormedPair .inc .none = false := by decide
theorem test_wf_inx_imm : wellFormedPair .inx (.immediate 0x01) = false := by decide
theorem test_wf_bit_imm : wellFormedPair .bit (.immediate 0x01) = false := by decide
theorem test_wf_ldx_zpx : wellFormedPair .ldx (.zeroPageX 0x10) = false := by decide
theorem test_wf_ldy_zpy : wellFormedPair .ldy (.zeroPageY 0x10) = false := by decide
theorem test_wf_sta_imm : wellFormedPair .sta (.immediate 0x01) = false := by decide
theorem test_wf_stx_zpx : wellFormedPair .stx (.zeroPageX 0x10) = false := by decide
theorem test_wf_sty_absx : wellFormedPair .sty (.absoluteX 0x0200) = false := by decide
theorem test_wf_jmp_absx : wellFormedPair .jmp (.absoluteX 0x0200) = false := by decide
theorem test_wf_jsr_ind : wellFormedPair .jsr (.indirect 0x0200) = false := by decide
theorem test_wf_bne_abs : wellFormedPair .bne (.absolute 0x0200) = false := by decide
theorem test_wf_memory_order : Memory.wf [(5, 0x01), (3, 0x01)] = false := by decide
theorem test_wf_memory_repeat : Memory.wf [(3, 0x01), (3, 0x02)] = false := by decide
theorem test_wf_memory_unlisted : Memory.wf [(3, 0x00)] = false := by decide
theorem test_wf_image_past_end : Image.wf { len := 3, cells := [(3, 0x01)] } = false := by decide

/-! ### Decoding: every cell of the opcode map of R108, with the operand bytes 0x34 and 0x12 (R90) -/

theorem test_decode_adc :
    [[0x61, 0x34], [0x65, 0x34], [0x69, 0x34], [0x6D, 0x34, 0x12], [0x71, 0x34], [0x75, 0x34],
      [0x79, 0x34, 0x12], [0x7D, 0x34, 0x12]].map decoded =
    [some (.adcIndX 0x34), some (.adcZp 0x34), some (.adcImm 0x34), some (.adcAbs 0x1234),
      some (.adcIndY 0x34), some (.adcZpX 0x34), some (.adcAbsY 0x1234), some (.adcAbsX 0x1234)] := by decide
theorem test_decode_sbc :
    [[0xE1, 0x34], [0xE5, 0x34], [0xE9, 0x34], [0xED, 0x34, 0x12], [0xF1, 0x34], [0xF5, 0x34],
      [0xF9, 0x34, 0x12], [0xFD, 0x34, 0x12]].map decoded =
    [some (.sbcIndX 0x34), some (.sbcZp 0x34), some (.sbcImm 0x34), some (.sbcAbs 0x1234),
      some (.sbcIndY 0x34), some (.sbcZpX 0x34), some (.sbcAbsY 0x1234), some (.sbcAbsX 0x1234)] := by decide
theorem test_decode_asl :
    [[0x06, 0x34], [0x0A], [0x0E, 0x34, 0x12], [0x16, 0x34], [0x1E, 0x34, 0x12]].map decoded =
    [some (.aslZp 0x34), some .aslA, some (.aslAbs 0x1234), some (.aslZpX 0x34), some (.aslAbsX 0x1234)] := by decide
theorem test_decode_lsr :
    [[0x46, 0x34], [0x4A], [0x4E, 0x34, 0x12], [0x56, 0x34], [0x5E, 0x34, 0x12]].map decoded =
    [some (.lsrZp 0x34), some .lsrA, some (.lsrAbs 0x1234), some (.lsrZpX 0x34), some (.lsrAbsX 0x1234)] := by decide
theorem test_decode_rol :
    [[0x26, 0x34], [0x2A], [0x2E, 0x34, 0x12], [0x36, 0x34], [0x3E, 0x34, 0x12]].map decoded =
    [some (.rolZp 0x34), some .rolA, some (.rolAbs 0x1234), some (.rolZpX 0x34), some (.rolAbsX 0x1234)] := by decide
theorem test_decode_ror :
    [[0x66, 0x34], [0x6A], [0x6E, 0x34, 0x12], [0x76, 0x34], [0x7E, 0x34, 0x12]].map decoded =
    [some (.rorZp 0x34), some .rorA, some (.rorAbs 0x1234), some (.rorZpX 0x34), some (.rorAbsX 0x1234)] := by decide
theorem test_decode_cmp :
    [[0xC1, 0x34], [0xC5, 0x34], [0xC9, 0x34], [0xCD, 0x34, 0x12], [0xD1, 0x34], [0xD5, 0x34],
      [0xD9, 0x34, 0x12], [0xDD, 0x34, 0x12]].map decoded =
    [some (.cmpIndX 0x34), some (.cmpZp 0x34), some (.cmpImm 0x34), some (.cmpAbs 0x1234),
      some (.cmpIndY 0x34), some (.cmpZpX 0x34), some (.cmpAbsY 0x1234), some (.cmpAbsX 0x1234)] := by decide
theorem test_decode_cpx :
    [[0xE0, 0x34], [0xE4, 0x34], [0xEC, 0x34, 0x12]].map decoded =
    [some (.cpxImm 0x34), some (.cpxZp 0x34), some (.cpxAbs 0x1234)] := by decide
theorem test_decode_cpy :
    [[0xC0, 0x34], [0xC4, 0x34], [0xCC, 0x34, 0x12]].map decoded =
    [some (.cpyImm 0x34), some (.cpyZp 0x34), some (.cpyAbs 0x1234)] := by decide
theorem test_decode_inc :
    [[0xE6, 0x34], [0xEE, 0x34, 0x12], [0xF6, 0x34], [0xFE, 0x34, 0x12]].map decoded =
    [some (.incZp 0x34), some (.incAbs 0x1234), some (.incZpX 0x34), some (.incAbsX 0x1234)] := by decide
theorem test_decode_dec :
    [[0xC6, 0x34], [0xCE, 0x34, 0x12], [0xD6, 0x34], [0xDE, 0x34, 0x12]].map decoded =
    [some (.decZp 0x34), some (.decAbs 0x1234), some (.decZpX 0x34), some (.decAbsX 0x1234)] := by decide
theorem test_decode_inx : decoded [0xE8] = some .inx := by decide
theorem test_decode_iny : decoded [0xC8] = some .iny := by decide
theorem test_decode_dex : decoded [0xCA] = some .dex := by decide
theorem test_decode_dey : decoded [0x88] = some .dey := by decide
theorem test_decode_and :
    [[0x21, 0x34], [0x25, 0x34], [0x29, 0x34], [0x2D, 0x34, 0x12], [0x31, 0x34], [0x35, 0x34],
      [0x39, 0x34, 0x12], [0x3D, 0x34, 0x12]].map decoded =
    [some (.andIndX 0x34), some (.andZp 0x34), some (.andImm 0x34), some (.andAbs 0x1234),
      some (.andIndY 0x34), some (.andZpX 0x34), some (.andAbsY 0x1234), some (.andAbsX 0x1234)] := by decide
theorem test_decode_ora :
    [[0x01, 0x34], [0x05, 0x34], [0x09, 0x34], [0x0D, 0x34, 0x12], [0x11, 0x34], [0x15, 0x34],
      [0x19, 0x34, 0x12], [0x1D, 0x34, 0x12]].map decoded =
    [some (.oraIndX 0x34), some (.oraZp 0x34), some (.oraImm 0x34), some (.oraAbs 0x1234),
      some (.oraIndY 0x34), some (.oraZpX 0x34), some (.oraAbsY 0x1234), some (.oraAbsX 0x1234)] := by decide
theorem test_decode_eor :
    [[0x41, 0x34], [0x45, 0x34], [0x49, 0x34], [0x4D, 0x34, 0x12], [0x51, 0x34], [0x55, 0x34],
      [0x59, 0x34, 0x12], [0x5D, 0x34, 0x12]].map decoded =
    [some (.eorIndX 0x34), some (.eorZp 0x34), some (.eorImm 0x34), some (.eorAbs 0x1234),
      some (.eorIndY 0x34), some (.eorZpX 0x34), some (.eorAbsY 0x1234), some (.eorAbsX 0x1234)] := by decide
theorem test_decode_bit :
    [[0x24, 0x34], [0x2C, 0x34, 0x12]].map decoded =
    [some (.bitZp 0x34), some (.bitAbs 0x1234)] := by decide
theorem test_decode_lda :
    [[0xA1, 0x34], [0xA5, 0x34], [0xA9, 0x34], [0xAD, 0x34, 0x12], [0xB1, 0x34], [0xB5, 0x34],
      [0xB9, 0x34, 0x12], [0xBD, 0x34, 0x12]].map decoded =
    [some (.ldaIndX 0x34), some (.ldaZp 0x34), some (.ldaImm 0x34), some (.ldaAbs 0x1234),
      some (.ldaIndY 0x34), some (.ldaZpX 0x34), some (.ldaAbsY 0x1234), some (.ldaAbsX 0x1234)] := by decide
theorem test_decode_ldx :
    [[0xA2, 0x34], [0xA6, 0x34], [0xAE, 0x34, 0x12], [0xB6, 0x34], [0xBE, 0x34, 0x12]].map decoded =
    [some (.ldxImm 0x34), some (.ldxZp 0x34), some (.ldxAbs 0x1234), some (.ldxZpY 0x34),
      some (.ldxAbsY 0x1234)] := by decide
theorem test_decode_ldy :
    [[0xA0, 0x34], [0xA4, 0x34], [0xAC, 0x34, 0x12], [0xB4, 0x34], [0xBC, 0x34, 0x12]].map decoded =
    [some (.ldyImm 0x34), some (.ldyZp 0x34), some (.ldyAbs 0x1234), some (.ldyZpX 0x34),
      some (.ldyAbsX 0x1234)] := by decide
theorem test_decode_sta :
    [[0x81, 0x34], [0x85, 0x34], [0x8D, 0x34, 0x12], [0x91, 0x34], [0x95, 0x34], [0x99, 0x34, 0x12],
      [0x9D, 0x34, 0x12]].map decoded =
    [some (.staIndX 0x34), some (.staZp 0x34), some (.staAbs 0x1234), some (.staIndY 0x34),
      some (.staZpX 0x34), some (.staAbsY 0x1234), some (.staAbsX 0x1234)] := by decide
theorem test_decode_stx :
    [[0x86, 0x34], [0x8E, 0x34, 0x12], [0x96, 0x34]].map decoded =
    [some (.stxZp 0x34), some (.stxAbs 0x1234), some (.stxZpY 0x34)] := by decide
theorem test_decode_sty :
    [[0x84, 0x34], [0x8C, 0x34, 0x12], [0x94, 0x34]].map decoded =
    [some (.styZp 0x34), some (.styAbs 0x1234), some (.styZpX 0x34)] := by decide
theorem test_decode_tax : decoded [0xAA] = some .tax := by decide
theorem test_decode_tay : decoded [0xA8] = some .tay := by decide
theorem test_decode_txa : decoded [0x8A] = some .txa := by decide
theorem test_decode_tya : decoded [0x98] = some .tya := by decide
theorem test_decode_tsx : decoded [0xBA] = some .tsx := by decide
theorem test_decode_txs : decoded [0x9A] = some .txs := by decide
theorem test_decode_pha : decoded [0x48] = some .pha := by decide
theorem test_decode_php : decoded [0x08] = some .php := by decide
theorem test_decode_pla : decoded [0x68] = some .pla := by decide
theorem test_decode_plp : decoded [0x28] = some .plp := by decide
theorem test_decode_jmp :
    [[0x4C, 0x34, 0x12], [0x6C, 0x34, 0x12]].map decoded =
    [some (.jmpAbs 0x1234), some (.jmpInd 0x1234)] := by decide
theorem test_decode_jsr : decoded [0x20, 0x34, 0x12] = some (.jsr 0x1234) := by decide
theorem test_decode_rts : decoded [0x60] = some .rts := by decide
theorem test_decode_rti : decoded [0x40] = some .rti := by decide
theorem test_decode_bcc : decoded [0x90, 0x34] = some (.bcc 0x34) := by decide
theorem test_decode_bcs : decoded [0xB0, 0x34] = some (.bcs 0x34) := by decide
theorem test_decode_beq : decoded [0xF0, 0x34] = some (.beq 0x34) := by decide
theorem test_decode_bne : decoded [0xD0, 0x34] = some (.bne 0x34) := by decide
theorem test_decode_bmi : decoded [0x30, 0x34] = some (.bmi 0x34) := by decide
theorem test_decode_bpl : decoded [0x10, 0x34] = some (.bpl 0x34) := by decide
theorem test_decode_bvc : decoded [0x50, 0x34] = some (.bvc 0x34) := by decide
theorem test_decode_bvs : decoded [0x70, 0x34] = some (.bvs 0x34) := by decide
theorem test_decode_brk : decoded [0x00] = some .brk := by decide
theorem test_decode_clc : decoded [0x18] = some .clc := by decide
theorem test_decode_sec : decoded [0x38] = some .sec := by decide
theorem test_decode_cli : decoded [0x58] = some .cli := by decide
theorem test_decode_sei : decoded [0x78] = some .sei := by decide
theorem test_decode_cld : decoded [0xD8] = some .cld := by decide
theorem test_decode_sed : decoded [0xF8] = some .sed := by decide
theorem test_decode_clv : decoded [0xB8] = some .clv := by decide
theorem test_decode_nop : decoded [0xEA] = some .nop := by decide

theorem test_decode_undefined : decoded [0x02] = none ∧ decoded [0x89, 0x00] = none ∧ decoded [0xFF] = none := by decide
theorem test_decode_truncated : decoded [] = none ∧ decoded [0x69] = none ∧ decoded [0x4C, 0x34] = none := by decide
/-- R113's examples of assembler text and bytes, table words numbered from the first byte's low bit. -/
theorem test_table_word :
    decodeTableWord 16 0x0169 = some (.adcImm 0x01) ∧ decodeTableWord 24 0x02009D = some (.staAbsX 0x0200) ∧
    decodeTableWord 8 0xEA = some .nop ∧ decodeTableWord 8 0x4C = some (.jmpAbs 0x0000) ∧
    decodeTableWord 8 0x02 = none := by decide
theorem test_encode :
    encode (.jmpInd 0x02FF) = [0x6C, 0xFF, 0x02] ∧ encode (.bne 0xFB) = [0xD0, 0xFB] ∧ encode .brk = [0x00] := by decide

/-! ### One step, the spec's vectors -/

theorem test_adc_V31 :
    let t := after (code 0x8000 [0x69, 0x01] { base with a := 0x7F, p := 0x30 })
    (t.a, t.p) = (0x80, 0xF0) := by decide
theorem test_adc_V36 :
    let t := after (code 0x8000 [0x69, 0xFF] { base with a := 0xFF, p := 0x31 })
    (t.p, t.pc) = (0xB1, 0x8002) := by decide
theorem test_sbc_V42 :
    let t := after (code 0x8000 [0xE9, 0x01] { base with a := 0x80, p := 0x31 })
    (t.a, t.p) = (0x7F, 0x71) := by decide
theorem test_sbc_V51 :
    let t := after (code 0x8000 [0xF9, 0xFF, 0x02] (holding [(0x0300, 0x80)] { base with a := 0x00, y := 0x01, p := 0x31 }))
    (t.a, t.p) = (0x80, 0xF0) := by decide
theorem test_asl_V53 :
    let t := after (code 0x8000 [0x0A] { base with a := 0x41, p := 0x31 })
    (t.a, t.p) = (0x82, 0xB0) := by decide
theorem test_asl_V60 :
    let t := after (code 0x8000 [0x06, 0x10] (holding [(0x0010, 0x55)] base))
    (t.p, ramByte 0x0010 t) = (0xB0, 0xAA) := by decide
theorem test_lsr_V55 :
    let t := after (code 0x8000 [0x4A] { base with a := 0xFF, p := 0xB0 })
    (t.a, t.p) = (0x7F, 0x31) := by decide
theorem test_lsr_V62 :
    let t := after (code 0x8000 [0x4E, 0x00, 0x20] { base with p := 0x31 })
    (t.p, t.pc) = (0x32, 0x8003) := by decide
theorem test_rol_V57 :
    let t := after (code 0x8000 [0x2A] { base with a := 0x00, p := 0x31 })
    (t.a, t.p) = (0x01, 0x30) := by decide
theorem test_rol_V63 :
    let t := after (code 0x8000 [0x36, 0xFF] (holding [(0x0000, 0x7F)] { base with x := 0x01, p := 0x31 }))
    (t.p, ramByte 0x0000 t) = (0xB0, 0xFF) := by decide
theorem test_ror_V59 :
    let t := after (code 0x8000 [0x6A] { base with a := 0x00, p := 0x31 })
    (t.a, t.p) = (0x80, 0xB0) := by decide
theorem test_ror_V61 :
    let t := after (code 0x8000 [0x7E, 0x00, 0x02] (holding [(0x0205, 0x02)] { base with x := 0x05, p := 0x31 }))
    (t.p, ramByte 0x0205 t) = (0xB0, 0x81) := by decide
theorem test_cmp_V68 :
    let t := after (code 0x8000 [0xC9, 0x00] { base with a := 0x80 })
    (t.p, t.pc) = (0xB1, 0x8002) := by decide
theorem test_cmp_V70 :
    let t := after (code 0x8000 [0xD1, 0x20] (holding [(0x0020, 0x00), (0x0021, 0x03), (0x0300, 0x02)] { base with a := 0x01, y := 0x00, p := 0x71 }))
    (t.p, t.pc) = (0xF0, 0x8002) := by decide
theorem test_cpx_V72 :
    let t := after (code 0x8000 [0xE4, 0x10] (holding [(0x0010, 0x02)] { base with x := 0x01 }))
    (t.p, t.pc) = (0xB0, 0x8002) := by decide
theorem test_cpx_V71 :
    let t := after (code 0x8000 [0xE0, 0x40] { base with x := 0x40 })
    (t.p, t.pc) = (0x33, 0x8002) := by decide
theorem test_cpy_V73 :
    let t := after (code 0x8000 [0xC0, 0x7F] { base with y := 0x80 })
    (t.p, t.pc) = (0x31, 0x8002) := by decide
theorem test_cpy_V74 :
    let t := after (code 0x8000 [0xCC, 0x00, 0x03] (holding [(0x0300, 0x01)] { base with y := 0x00 }))
    (t.p, t.pc) = (0xB0, 0x8003) := by decide
theorem test_inc_V75 :
    let t := after (code 0x8000 [0xE6, 0x10] (holding [(0x0010, 0xFF)] { base with p := 0x31 }))
    (t.p, ramByte 0x0010 t) = (0x33, 0x00) := by decide
theorem test_inc_V84 :
    let t := after (code 0x8000 [0xEE, 0x01, 0x80] base)
    (readByte 0x8001 t, t.p) = (.ok 0x01, 0x30) := by decide
theorem test_dec_V77 :
    let t := after (code 0x8000 [0xC6, 0x10] (holding [(0x0010, 0x00)] base))
    (t.p, ramByte 0x0010 t) = (0xB0, 0xFF) := by decide
theorem test_dec_V78 :
    let t := after (code 0x8000 [0xD6, 0xFF] (holding [(0x0001, 0x01)] { base with x := 0x02 }))
    (t.p, ramByte 0x0001 t) = (0x32, 0x00) := by decide
theorem test_inx_V80 :
    let t := after (code 0x8000 [0xE8] { base with x := 0xFF })
    (t.x, t.p) = (0x00, 0x32) := by decide
theorem test_inx_V79 :
    let t := after (code 0x8000 [0xE8] { base with x := 0x7F })
    (t.x, t.p) = (0x80, 0xB0) := by decide
theorem test_iny_V81 :
    let t := after (code 0x8000 [0xC8] { base with y := 0xFF })
    (t.y, t.p) = (0x00, 0x32) := by decide
theorem test_dex_V82 :
    let t := after (code 0x8000 [0xCA] { base with x := 0x00 })
    (t.x, t.p) = (0xFF, 0xB0) := by decide
theorem test_dey_V83 :
    let t := after (code 0x8000 [0x88] { base with y := 0x01 })
    (t.y, t.p) = (0x00, 0x32) := by decide
theorem test_and_V86 :
    let t := after (code 0x8000 [0x29, 0xC0] { base with a := 0x81 })
    (t.a, t.p) = (0x80, 0xB0) := by decide
theorem test_and_V85 :
    let t := after (code 0x8000 [0x29, 0x0F] { base with a := 0xF0 })
    (t.a, t.p) = (0x00, 0x32) := by decide
theorem test_ora_V87 :
    let t := after (code 0x8000 [0x09, 0x80] { base with a := 0x01 })
    (t.a, t.p) = (0x81, 0xB0) := by decide
theorem test_ora_V88 :
    let t := after (code 0x8000 [0x09, 0x00] { base with a := 0x00 })
    (t.p, t.pc) = (0x32, 0x8002) := by decide
theorem test_eor_V89 :
    let t := after (code 0x8000 [0x49, 0xFF] { base with a := 0xFF })
    (t.a, t.p) = (0x00, 0x32) := by decide
theorem test_eor_V90 :
    let t := after (code 0x8000 [0x49, 0x80] { base with a := 0x01 })
    (t.a, t.p) = (0x81, 0xB0) := by decide
theorem test_bit_V91 :
    let t := after (code 0x8000 [0x24, 0x10] (holding [(0x0010, 0xC0)] { base with a := 0x00 }))
    (t.p, t.pc) = (0xF2, 0x8002) := by decide
theorem test_bit_V92 :
    let t := after (code 0x8000 [0x24, 0x10] (holding [(0x0010, 0x01)] { base with a := 0x01, p := 0xF2 }))
    (t.p, t.pc) = (0x30, 0x8002) := by decide
theorem test_lda_V10 :
    let t := after (code 0x8000 [0xA1, 0xFE] (holding [(0x00FF, 0x10), (0x0000, 0x02), (0x0210, 0xCD)] { base with x := 0x01 }))
    (t.a, t.p) = (0xCD, 0xB0) := by decide
theorem test_lda_V13 :
    let t := after (code 0x8000 [0xB1, 0xFF] (holding [(0x00FF, 0x00), (0x0000, 0x04), (0x0405, 0x12)] { base with y := 0x05 }))
    (t.a, t.pc) = (0x12, 0x8002) := by decide
theorem test_ldx_V4 :
    let t := after (code 0x8000 [0xB6, 0xFF] (holding [(0x0001, 0x99)] { base with y := 0x02 }))
    (t.x, t.p) = (0x99, 0xB0) := by decide
theorem test_ldx_V97 :
    let t := after (code 0x8000 [0xBE, 0x00, 0x03] (holding [(0x0310, 0x90)] { base with y := 0x10 }))
    (t.x, t.p) = (0x90, 0xB0) := by decide
theorem test_ldy_V98 :
    let t := after (code 0x8000 [0xB4, 0x10] (holding [(0x0011, 0x7F)] { base with x := 0x01 }))
    (t.y, t.pc) = (0x7F, 0x8002) := by decide
theorem test_ldy_V99 :
    let t := after (code 0x8000 [0xBC, 0x00, 0x03] (holding [(0x03FF, 0xFF)] { base with x := 0xFF }))
    (t.y, t.p) = (0xFF, 0xB0) := by decide
theorem test_sta_V100 :
    let t := after (code 0x8000 [0x91, 0x20] (holding [(0x0020, 0x00), (0x0021, 0x03)] { base with a := 0x80, y := 0x01 }))
    (ramByte 0x0301 t, t.pc) = (0x80, 0x8002) := by decide
theorem test_sta_V25 :
    let t := after (code 0x8000 [0x8D, 0x00, 0x80] { base with a := 0xFF })
    (readByte 0x8000 t, t.pc) = (.ok 0x8D, 0x8003) := by decide
theorem test_stx_V103 :
    let t := after (code 0x8000 [0x96, 0xFF] { base with x := 0xAB, y := 0x03 })
    (ramByte 0x0002 t, t.pc) = (0xAB, 0x8002) := by decide
theorem test_stx_V104 :
    let t := after (code 0x8000 [0x8E, 0x00, 0x03] { base with x := 0x01 })
    (ramByte 0x0300 t, t.pc) = (0x01, 0x8003) := by decide
theorem test_sty_V105 :
    let t := after (code 0x8000 [0x8C, 0x01, 0x18] { base with y := 0x66 })
    (ramByte 0x0001 t, t.pc) = (0x66, 0x8003) := by decide
theorem test_sty_V106 :
    let t := after (code 0x8000 [0x94, 0x00] { base with x := 0x05, y := 0x01 })
    (ramByte 0x0005 t, t.pc) = (0x01, 0x8002) := by decide
theorem test_tax_V107 :
    let t := after (code 0x8000 [0xAA] { base with a := 0x00, x := 0x33 })
    (t.x, t.p) = (0x00, 0x32) := by decide
theorem test_tay_V108 :
    let t := after (code 0x8000 [0xA8] { base with a := 0x80 })
    (t.y, t.p) = (0x80, 0xB0) := by decide
theorem test_txa_V109 :
    let t := after (code 0x8000 [0x8A] { base with a := 0x80, x := 0x01, p := 0xB0 })
    (t.a, t.p) = (0x01, 0x30) := by decide
theorem test_tya_V110 :
    let t := after (code 0x8000 [0x98] { base with a := 0x05, y := 0x00 })
    (t.a, t.p) = (0x00, 0x32) := by decide
theorem test_tsx_V111 :
    let t := after (code 0x8000 [0xBA] base)
    (t.x, t.p) = (0xFD, 0xB0) := by decide
theorem test_txs_V112 :
    let t := after (code 0x8000 [0x9A] { base with x := 0x00, p := 0x30 })
    (t.sp, t.p) = (0x00, 0x30) := by decide
theorem test_pha_V114 :
    let t := after (code 0x8000 [0x48] { base with a := 0x77, sp := 0x00 })
    (t.sp, ramByte 0x0100 t) = (0xFF, 0x77) := by decide
theorem test_php_V116 :
    let t := after (code 0x8000 [0x08] { base with p := 0xE3 })
    (t.sp, ramByte 0x01FD t) = (0xFC, 0xF3) := by decide
theorem test_pla_V118 :
    let t := after (code 0x8000 [0x68] (holding [(0x0100, 0x80)] { base with sp := 0xFF }))
    (t.a, t.sp, t.p) = (0x80, 0x00, 0xB0) := by decide
theorem test_plp_V119 :
    let t := after (code 0x8000 [0x28] (holding [(0x01FD, 0xFF)] { base with sp := 0xFC }))
    (t.sp, t.p) = (0xFD, 0xEF) := by decide
theorem test_jmp_V121 :
    let t := after (code 0x8000 [0x4C, 0x00, 0x90] base)
    t.pc = 0x9000 := by decide
theorem test_jmp_V16 :
    let t := after (code 0x8000 [0x6C, 0xFF, 0x02] (holding [(0x02FF, 0x34), (0x0200, 0x12), (0x0300, 0x56)] base))
    t.pc = 0x1234 := by decide
theorem test_jmp_V17 :
    let t := after (code 0x8000 [0x6C, 0xFF, 0xFF] (holding [(0xFFFF, 0x10), (0xFF00, 0x80)] base))
    t.pc = 0x8010 := by decide
theorem test_jsr_V123 :
    let t := after (code 0x8000 [0x20, 0x00, 0x90] base)
    (t.sp, ramByte 0x01FC t, ramByte 0x01FD t, t.pc) = (0xFB, 0x02, 0x80, 0x9000) := by decide
theorem test_jsr_V124 :
    let t := after (code 0x8000 [0x20, 0x00, 0x90] { base with sp := 0x00 })
    (t.sp, ramByte 0x0100 t, ramByte 0x01FF t, t.pc) = (0xFE, 0x80, 0x02, 0x9000) := by decide
theorem test_rts_V126 :
    let t := after (code 0x8000 [0x60] (holding [(0x01FC, 0xFF), (0x01FD, 0xFF)] { base with sp := 0xFB }))
    (t.sp, t.pc) = (0xFD, 0x0000) := by decide
theorem test_rti_V129 :
    let t := after (code 0x8000 [0x40] (holding [(0x01FF, 0x10), (0x0100, 0x00), (0x0101, 0x80)] { base with sp := 0xFE }))
    (t.sp, t.p, t.pc) = (0x01, 0x20, 0x8000) := by decide
theorem test_rti_V128 :
    let t := after (code 0x8000 [0x40] (holding [(0x01FB, 0xD3), (0x01FC, 0x00), (0x01FD, 0x90)] { base with sp := 0xFA }))
    (t.sp, t.p, t.pc) = (0xFD, 0xE3, 0x9000) := by decide
theorem test_bcc_V131 :
    let t := after (code 0x8000 [0x90, 0x0E] { base with p := 0x31 })
    t.pc = 0x8002 := by decide
theorem test_bcc_V130 :
    let t := after (code 0x8000 [0x90, 0x0E] { base with p := 0x30 })
    t.pc = 0x8010 := by decide
theorem test_bcs_V133 :
    let t := after (code 0x8000 [0xB0, 0x0E] { base with p := 0x31 })
    t.pc = 0x8010 := by decide
theorem test_bcs_V132 :
    let t := after (code 0x8000 [0xB0, 0x0E] { base with p := 0x30 })
    t.pc = 0x8002 := by decide
theorem test_beq_V135 :
    let t := after (code 0x8000 [0xF0, 0x0E] { base with p := 0x32 })
    t.pc = 0x8010 := by decide
theorem test_beq_V150 :
    let t := after (code 0x8100 [0xF0, 0xEE] { base with p := 0x32 })
    t.pc = 0x80F0 := by decide
theorem test_bne_V147 :
    let t := after (code 0x8000 [0xD0, 0x80] base)
    t.pc = 0x7F82 := by decide
theorem test_bne_V137 :
    let t := after (code 0x8000 [0xD0, 0x0E] { base with p := 0x32 })
    t.pc = 0x8002 := by decide
theorem test_bmi_V151 :
    let t := after (code 0xFFF0 [0x30, 0x10] { base with p := 0xB0 })
    t.pc = 0x0002 := by decide
theorem test_bmi_V138 :
    let t := after (code 0x8000 [0x30, 0x0E] { base with p := 0x30 })
    t.pc = 0x8002 := by decide
theorem test_bpl_V140 :
    let t := after (code 0x8000 [0x10, 0x0E] { base with p := 0x30 })
    t.pc = 0x8010 := by decide
theorem test_bpl_V141 :
    let t := after (code 0x8000 [0x10, 0x0E] { base with p := 0xB0 })
    t.pc = 0x8002 := by decide
theorem test_bvc_V142 :
    let t := after (code 0x8000 [0x50, 0x0E] { base with p := 0x30 })
    t.pc = 0x8010 := by decide
theorem test_bvc_V143 :
    let t := after (code 0x8000 [0x50, 0x0E] { base with p := 0x70 })
    t.pc = 0x8002 := by decide
theorem test_bvs_V145 :
    let t := after (code 0x8000 [0x70, 0x0E] { base with p := 0x70 })
    t.pc = 0x8010 := by decide
theorem test_bvs_V144 :
    let t := after (code 0x8000 [0x70, 0x0E] { base with p := 0x30 })
    t.pc = 0x8002 := by decide
theorem test_brk_V153 :
    let t := after (code 0x8000 [0x00] { base with p := 0x20 })
    (t.p, t.halted, t.pc) = (0x30, true, 0x8001) := by decide
theorem test_clc_V157 :
    let t := after (code 0x8000 [0x18] { base with p := 0xFF })
    (t.p, t.pc) = (0xFE, 0x8001) := by decide
theorem test_sec_V158 :
    let t := after (code 0x8000 [0x38] base)
    (t.p, t.pc) = (0x31, 0x8001) := by decide
theorem test_cli_V159 :
    let t := after (code 0x8000 [0x58] { base with p := 0x34 })
    (t.p, t.pc) = (0x30, 0x8001) := by decide
theorem test_sei_V160 :
    let t := after (code 0x8000 [0x78] base)
    (t.p, t.pc) = (0x34, 0x8001) := by decide
theorem test_cld_V161 :
    let t := after (code 0x8000 [0xD8] { base with p := 0x38 })
    (t.p, t.pc) = (0x30, 0x8001) := by decide
theorem test_sed_V162 :
    let t := after (code 0x8000 [0xF8] base)
    (t.p, t.pc) = (0x38, 0x8001) := by decide
theorem test_clv_V163 :
    let t := after (code 0x8000 [0xB8] { base with p := 0x70 })
    (t.p, t.pc) = (0x30, 0x8001) := by decide
theorem test_nop_V164 :
    let t := after (code 0x8000 [0xEA] { base with a := 0x01, x := 0x02, y := 0x03, p := 0xE3 })
    t.pc = 0x8001 := by decide

/-! ### Faults (95, section 2) -/

theorem test_fault_V28 : (after (code 0x0400 [0xAD, 0x00, 0x80] (withPrg 0))).fault =
    some { kind := .prgOutOfRange, pc := 0x0400, ir := 0xAD, addr := 0x8000 } := by decide
theorem test_fault_V29 : (after (code 0x0400 [0xAD, 0x00, 0xC0] (withPrg 0x2000))).fault =
    some { kind := .prgOutOfRange, pc := 0x0400, ir := 0xAD, addr := 0xC000 } := by decide
theorem test_fault_V154 : (after (code 0x01FB [0x20, 0x00, 0x80] base)).fault =
    some { kind := .stackOverlapsOperand, pc := 0x01FB, ir := 0x20, addr := 0x01FC } := by decide
theorem test_fault_V155 : (after (code 0x09FC [0x20, 0x00, 0x80] base)).fault =
    some { kind := .stackOverlapsOperand, pc := 0x09FC, ir := 0x20, addr := 0x09FD } := by decide
theorem test_fault_V165 :
    let t := after (code 0x8000 [0x02] base)
    t.fault = some { kind := .illegalOpcode, pc := 0x8000, ir := 0x02, addr := 0x8000 } ∧ t.pc = 0x8001 := by decide
theorem test_fault_V167 :
    let t := after { withPrg 0 with ir := 0x4C }
    t.fault = some { kind := .prgOutOfRange, pc := 0x8000, ir := 0x4C, addr := 0x8000 } ∧ t.pc = 0x8000 := by decide
theorem test_fault_V168 : let t := after { base with pc := 0x3000 }; (t.pc, t.halted) = (0x3001, true) := by decide

/-! ### Reset, host and platform -/

theorem test_reset_V170 :
    let t := resetEvent { base with a := 0x11, y := 0x33, sp := 0x00, p := 0xFF, pc := 0x1234, halted := true }
    (t.y, t.sp, t.p, t.pc, t.halted) = (0x33, 0xFD, 0x30, 0x8000, false) := by decide
theorem test_reset_V172 :
    let t := resetEvent { withPrg 0 with a := 0x11, pc := 0x0400, ir := 0xEA }
    (t.a, t.pc) = (0x11, 0x0400) ∧
    t.fault = some { kind := .prgOutOfRange, pc := 0xFFFC, ir := 0xEA, addr := 0xFFFC } := by decide
theorem test_reset_V173 :
    let r : FaultRecord := { kind := .illegalOpcode, pc := 0x0300, ir := 0x02, addr := 0x0300 }
    let t := resetEvent { base with a := 0x05, pc := 0x0301, fault := some r }
    (t.a, t.pc, t.fault) = (0x00, 0x8000, some r) ∧ after t = t := by decide
theorem test_fetch_word_at_reset : (after (State.reset.withFetchWord 16 0x42A9)).a = 0x42 := by decide
theorem test_fetch_word_off_memory :
    (after ({ base with pc := 0x4000, halted := true }.withFetchWord 16 0x42A9)).a = 0x42 := by decide
theorem test_load_program :
    let t := resetEvent (loadProgram 0x0400 [0xA9, 0x0A] State.reset)
    (t.pc, ramByte 0x0400 t, ramByte 0x0401 t) = (0x0400, 0xA9, 0x0A) := by decide
theorem test_host_write : (hostWrite (.ram 0x0801 0x77) base).ram = [(1, 0x77)] ∧ hostWrite (.ram 0x8000 0x77) base = base := by
  decide
theorem test_trace_V6 : traceOf (code 0x8000 [0xBD, 0xF8, 0x02] (holding [(0x0308, 0x33)] { base with x := 0x10 })) =
    { bytes := [0xBD, 0xF8, 0x02], address := some 0x0308, value := some 0x33 } := by decide
/-- R72, R73: mapper nibbles and the mirroring precedence. -/
theorem test_cartridge_header :
    parseCartridge ([0x4E, 0x45, 0x53, 0x1A, 0x00, 0x00, 0x19, 0x20] ++ List.replicate 8 0x00) =
    .rom { prg := { len := 0, cells := [] }, chr := { len := 0, cells := [] }, mapper := 0x21, mirroring := .fourScreen } := by
  decide
/-- R75: another magic, another format version, a buffer shorter than declared. -/
theorem test_cartridge_bad :
    parseCartridge [0x4E, 0x45, 0x53] = .noRom ∧
    parseCartridge ([0x4E, 0x45, 0x53, 0x1A, 0x00, 0x00, 0x00, 0x08] ++ List.replicate 8 0x00) = .noRom ∧
    parseCartridge ([0x4E, 0x45, 0x53, 0x1A, 0x01, 0x00, 0x00, 0x00] ++ List.replicate 8 0x00) =
      .refused .truncatedCartridge := by decide

/-! ### Witnesses: the hypotheses of each obligation are met together -/

theorem witness_EncodeInvertsDecode : decode [0x69, 0x34, 0xEA] = .ok (.adcImm 0x34, [0xEA]) := rfl
theorem witness_UndefinedOpcodesFault :
    let s := code 0x8000 [0xFF] base
    Running s ∧ readByte s.pc s = .ok 0xFF ∧ 0xFF ∈ undefinedOpcodes := by decide
/-- At the wrap of the address space: the operand word is read at 0xFFFF and 0x0000. -/
theorem witness_StepRunsDecodedInstruction :
    let s := code 0xFFFE [0x4C, 0x00, 0x90] base
    Running s ∧
    ∀ (k : Nat) (h : k < (encode (.jmpAbs 0x9000)).length),
      readByte (s.pc + BitVec.ofNat 16 k) s = .ok ((encode (.jmpAbs 0x9000))[k]) := by decide
theorem witness_OpcodeFetchFaults :
    let s := withPrg 0
    Running s ∧ readByte s.pc s = .fault .prgOutOfRange 0x8000 := by decide
/-- Both clauses, at the last byte of an image: LDA absolute, and JSR without an overlap. -/
theorem witness_OperandFetchFaults :
    (let s := code 0x8000 [0xAD] (withPrg 1)
     ∃ row, Running s ∧ readByte s.pc s = .ok 0xAD ∧ descriptor 0xAD = some row ∧ (0xAD : Byte) ≠ 0x20 ∧
      fetchOperand row.template { s with ir := 0xAD, pc := s.pc + 1 } = .fault .prgOutOfRange 0x8001) ∧
    (let s := code 0x8000 [0x20, 0x00] (withPrg 2)
     ∃ row, Running s ∧ readByte s.pc s = .ok 0x20 ∧ descriptor 0x20 = some row ∧
      fetchOperand row.template { s with ir := 0x20, pc := s.pc + 1 } = .fault .prgOutOfRange 0x8002 ∧
      jsrOverlap { s with ir := 0x20, pc := s.pc + 1 } = none) :=
  ⟨⟨_, by decide, by decide, rfl, by decide, rfl⟩, ⟨_, by decide, by decide, rfl, rfl, by decide⟩⟩
theorem witness_FetchSeesStores :
    let s := { base with pc := 0x1FFF }
    Running s ∧ RamWf s ∧ inRam s.pc = true ∧ Instr.inx.length = 1 := by decide
theorem witness_PlacedWordRunsNext :
    RamWf State.reset ∧ State.reset.rom.prg.wf = true ∧ decodeTableWord 16 0x42A9 = some (.ldaImm 0x42) := by decide
theorem witness_ResolverReadsOperandsFromMemory :
    ∃ i t, fetch (code 0x8000 [0xB1, 0x40] base) = .instr i t ∧ i = .ldaIndY 0x40 := ⟨_, _, rfl, rfl⟩
/-- The JMP pointer at 0x02FF, at 0xFFFF and at 0x0200: both reads succeed. -/
theorem witness_EffectiveAddressesAsNumbers :
    readByte 0x02FF base = .ok 0x00 ∧ readByte 0x0200 base = .ok 0x00 ∧
    readByte 0xFFFF base = .ok 0x00 ∧ readByte 0xFF00 base = .ok 0x00 ∧
    readByte 0x0201 base = .ok 0x00 := by decide
theorem witness_RamIsMirroredFourTimes : 0x07FF < 0x0800 ∧ 3 < 4 := by decide
/-- Each clause: canonical RAM, the first address above RAM, the last that reads 0, the first of ROM. -/
theorem witness_StoresReachRamOnly :
    RamWf base ∧ 0x1FFF < (0x2000 : Word).toNat ∧ (0x7FFF : Word).toNat ≤ 0x7FFF ∧ 0x1FFF < (0x8000 : Word).toNat := by
  decide
/-- Both clauses, at the ends of the window. -/
theorem witness_PrgWindowReads :
    0x8000 ≤ (0x8000 : Word).toNat ∧ 0x8000 ≤ (0xBFFF : Word).toNat ∧ (0xBFFF : Word).toNat ≤ 0xBFFF ∧
    base.rom.prg.len = 0x4000 ∧ (withPrg 1).rom.prg.len ≠ 0x4000 := by decide
/-- Both reads succeed at the wrap; the first faults; the second alone faults. -/
theorem witness_WordAccessesAreTwoByteAccesses :
    (readByte 0xFFFF base = .ok 0x00 ∧ readByte 0x0000 base = .ok 0x00) ∧
    readByte 0x8000 (withPrg 0) = .fault .prgOutOfRange 0x8000 ∧
    (readByte 0x8000 (withPrg 1) = .ok 0x00 ∧ readByte 0x8001 (withPrg 1) = .fault .prgOutOfRange 0x8001) := by decide
theorem witness_SetZnWritesZAndNOnly : Flag.u ≠ .z ∧ Flag.u ≠ .n := by decide
theorem witness_PushAndPullWrapInPageOne : RamWf { base with sp := 0x00 } := by decide
theorem witness_AdcAddsWithCarry :
    (Instr.adcImm 0xFF).mnemonic = .adc ∧ OperandIs (.adcImm 0xFF) base 0xFF ∧
    (Instr.adcIndY 0xFF).mnemonic = .adc ∧ OperandIs (.adcIndY 0xFF) base 0x00 := by decide
theorem witness_SbcSubtractsWithBorrow :
    (Instr.sbcImm 0x01).mnemonic = .sbc ∧ OperandIs (.sbcImm 0x01) base 0x01 ∧
    (Instr.sbcAbsX 0xFFFF).mnemonic = .sbc ∧ OperandIs (.sbcAbsX 0xFFFF) base 0x00 := by decide
theorem witness_DecimalFlagChangesNoArithmetic :
    (Instr.adcImm 0x01).mnemonic = .adc ∧ (Instr.sbcImm 0x01).mnemonic = .sbc ∧
    (∃ t, exec (.adcImm 0x01) base = .next t) ∧ ∃ t, exec (.sbcImm 0x01) base = .next t :=
  ⟨rfl, rfl, ⟨_, rfl⟩, ⟨_, rfl⟩⟩
/-- Both forms; the memory form in RAM and outside it. -/
theorem witness_ShiftsAndRotates :
    (Instr.rorA.mnemonic ∈ [Mnemonic.asl, .lsr, .rol, .ror] ∧ Instr.rorA.mode = .noneAddressing) ∧
    (Instr.lsrAbs 0x2000).mnemonic ∈ [Mnemonic.asl, .lsr, .rol, .ror] ∧ (Instr.lsrAbs 0x2000).mode ≠ .noneAddressing ∧
    RamWf base ∧ AddressIs (.lsrAbs 0x2000) base 0x2000 ∧ readByte 0x2000 base = .ok 0x00 ∧
    AddressIs (.lsrAbs 0x1FFF) base 0x1FFF ∧ readByte 0x1FFF base = .ok 0x00 := by decide
theorem witness_ComparesSetFlagsOnly :
    (Instr.cpyImm 0xFF).mnemonic ∈ [Mnemonic.cmp, .cpx, .cpy] ∧ OperandIs (.cpyImm 0xFF) base 0xFF ∧
    (Instr.cmpZp 0x00).mnemonic ∈ [Mnemonic.cmp, .cpx, .cpy] ∧ OperandIs (.cmpZp 0x00) base 0x00 := by decide
theorem witness_IncDecOfMemory :
    (Instr.decZpX 0xFF).mnemonic ∈ [Mnemonic.inc, .dec] ∧ RamWf base ∧ AddressIs (.decZpX 0xFF) base 0x00FF ∧
    readByte 0x00FF base = .ok 0x00 := by decide
theorem witness_IncDecOfIndexRegisters :
    Instr.inx.mnemonic ∈ [Mnemonic.inx, .iny, .dex, .dey] ∧ Instr.dey.mnemonic ∈ [Mnemonic.inx, .iny, .dex, .dey] := by
  decide
theorem witness_LogicOnTheAccumulator :
    (Instr.eorImm 0xFF).mnemonic ∈ [Mnemonic.and, .ora, .eor] ∧ OperandIs (.eorImm 0xFF) base 0xFF := by decide
theorem witness_BitTestsWithoutWriting :
    (Instr.bitAbs 0x1FFF).mnemonic = .bit ∧ OperandIs (.bitAbs 0x1FFF) base 0x00 := by decide
theorem witness_LoadsWriteTheirRegister :
    (Instr.ldxZpY 0xFF).mnemonic ∈ [Mnemonic.lda, .ldx, .ldy] ∧ OperandIs (.ldxZpY 0xFF) base 0x00 := by decide
/-- In RAM, at its last mirror and outside it. -/
theorem witness_StoresWriteTheirRegister :
    (Instr.staAbs 0x1FFF).mnemonic ∈ [Mnemonic.sta, .stx, .sty] ∧ RamWf base ∧
    AddressIs (.staAbs 0x1FFF) base 0x1FFF ∧ AddressIs (.styAbs 0x2000) base 0x2000 := by decide
/-- The data read, and each of the two pointer reads of JMP indirect. -/
theorem witness_DataReadFaults :
    (Instr.ldaAbs 0x8001).mnemonic ∈ [Mnemonic.adc, .lda] ∧
    operandByte (Instr.ldaAbs 0x8001).operand (withPrg 1) = some (.fault .prgOutOfRange 0x8001) ∧
    readByte 0x8001 (withPrg 1) = .fault .prgOutOfRange 0x8001 ∧
    readByte 0x8000 (withPrg 1) = .ok 0x00 := by decide
theorem witness_PushesOfAAndP :
    Instr.pha.mnemonic ∈ [Mnemonic.pha, .php] ∧ Instr.php.mnemonic ∈ [Mnemonic.pha, .php] ∧
    RamWf { base with sp := 0x00 } := by decide
theorem witness_JumpsSetPc :
    readByte 0x02FF base = .ok 0x00 ∧ readByte 0x0200 base = .ok 0x00 ∧
    readByte 0xFFFF base = .ok 0x00 ∧ readByte 0xFF00 base = .ok 0x00 ∧
    readByte 0x02FE base = .ok 0x00 := by decide
theorem witness_JsrPushesAndJumps : RamWf { base with sp := 0x00 } ∧ jsrOverlap { base with sp := 0x00 } = none := by decide
/-- The first operand byte, the second alone, and neither. -/
theorem witness_JsrOverlapFaults :
    jsrOverlap { base with pc := 0x01FC } = some 0x01FC ∧ jsrOverlap { base with pc := 0x01FB } = some 0x01FC ∧
    jsrOverlap { base with pc := 0x01FE } = none ∧ jsrOverlap { base with pc := 0x09FC } = some 0x09FC := by decide
theorem witness_JsrTargetSurvivesThePushes :
    RamWf { base with pc := 0x01FE } ∧ jsrOverlap { base with pc := 0x01FE } = none := by decide
theorem witness_RtsUndoesJsr :
    RamWf base ∧ jsrOverlap base = none ∧ ∃ t, exec (.jsr 0x9000) base = .next t := ⟨by decide, by decide, _, rfl⟩
theorem witness_BranchesTestTheirFlag :
    (Instr.bvs, (0x70 : Byte), Flag.v, true) ∈
      [(Instr.bcc, (0x90 : Byte), Flag.c, false), (.bvs, 0x70, .v, true)] := .tail _ (.head _)
theorem witness_FlagInstructionsAndNop :
    (Instr.clv, (0xB8 : Byte), Flag.v, false) ∈ [(Instr.clc, (0x18 : Byte), Flag.c, false), (.clv, 0xB8, .v, false)] := by
  decide
/-- Each clause: an instruction that changes A, X, Y, SP, halted and RAM. -/
theorem witness_WhoWritesWhichRegister :
    (nextOf (exec (.ldaImm 0x01) base)).a ≠ base.a ∧ (nextOf (exec (.ldxImm 0x01) base)).x ≠ base.x ∧
    (nextOf (exec (.ldyImm 0x01) base)).y ≠ base.y ∧ (nextOf (exec .txs base)).sp ≠ base.sp ∧
    (nextOf (exec .brk base)).halted ≠ base.halted ∧
    (nextOf (exec (.incAbs 0x0010) base)).ram ≠ base.ram := by decide
/-- Each clause: an instruction that changes C, Z, I, D, B, V, N, and PLP changing U in a state that has it clear. -/
theorem witness_WhoWritesWhichFlag :
    (let changes (f : Flag) (i : Instr) (s : State) : Bool := getFlag f (nextOf (exec i s)).p != getFlag f s.p
     changes .c .sec base ∧ changes .z (.ldaImm 0x00) base ∧ changes .i .sei base ∧ changes .d .sed base ∧
      changes .b .brk { base with p := 0x20 } ∧ changes .v (.adcImm 0x7F) { base with a := 0x01 } ∧
      changes .n (.ldaImm 0x80) base ∧ changes .u .plp { base with p := 0x00 }) := by decide
theorem witness_EveryStepAnswersANextState : ¬Running { base with halted := true } := by decide
/-- An illegal opcode, and JSR with an overlap. -/
theorem witness_FaultsArePrecise :
    (∃ t r, Running (code 0x8000 [0x02] base) ∧ step (code 0x8000 [0x02] base) = .next t ∧ t.fault = some r ∧
      readByte 0x8000 (code 0x8000 [0x02] base) ≠ .ok 0x20) ∧
    ∃ t r, Running (code 0x01FB [0x20, 0x00, 0x80] base) ∧ step (code 0x01FB [0x20, 0x00, 0x80] base) = .next t ∧
      t.fault = some r := ⟨⟨_, _, by decide, rfl, rfl, by decide⟩, ⟨_, _, by decide, rfl, rfl⟩⟩
theorem witness_OnlyBrkHalts :
    ∃ t, Running (code 0x8000 [0x00] base) ∧ step (code 0x8000 [0x00] base) = .next t ∧ t.halted = true :=
  ⟨_, by decide, rfl, rfl⟩
theorem witness_FetchOutsideMemoryHalts :
    Running { base with pc := 0x2000 } ∧ 0x2000 ≤ (0x2000 : Word).toNat ∧ (0x7FFF : Word).toNat ≤ 0x7FFF := by decide
theorem witness_NoStepChangesRom : ∃ t, step base = .next t ∧ inRam 0x2000 = false := ⟨_, rfl, by decide⟩
theorem witness_StepKeepsInvariant : ∃ t, Inv base ∧ step base = .next t := ⟨_, by decide, rfl⟩
theorem witness_ResetFollowsItsRule : readByte 0xFFFC base = .ok 0x00 ∧ readByte 0xFFFD base = .ok 0x80 := by decide
/-- The first read faults; the second alone faults; each with no record and with one. -/
theorem witness_FaultingResetRecordsOnly :
    readByte 0xFFFC (withPrg 0x7FFC) = .fault .prgOutOfRange 0xFFFC ∧
    readByte 0xFFFC (withPrg 0x7FFD) = .ok 0x00 ∧ readByte 0xFFFD (withPrg 0x7FFD) = .fault .prgOutOfRange 0xFFFD ∧
    base.fault = none ∧
    { base with fault := some { kind := .illegalOpcode, pc := 0x0300, ir := 0x02, addr := 0x0300 } }.fault ≠ none := by
  decide
theorem witness_LaunchHasTheResetValues :
    readWord 0xFFFC
      (powerOn { rom := base.rom, ram0 := [], y0 := 0x77 }
        { a := 0x11, x := 0x22, sp := 0x33, pc := 0x4444, p := 0x55, ir := 0x66 }) = .ok 0x8000 := by decide
theorem witness_ResetStateIsALaunch :
    (Unspecified.ir { a := 0x11, x := 0x22, sp := 0x33, pc := 0x4444, p := 0x55, ir := 0x00 }) = 0x00 := by decide
theorem witness_LoadedProgramStartsAtItsAddress : base.rom.prg.len = 0x4000 ∧ base.rom.prg.wf = true := by decide
/-- Another magic, another format version, and a platform with the empty ROM record. -/
theorem witness_BadCartridgeFaultsAtReset :
    ([] : List Byte).take 4 ≠ [0x4E, 0x45, 0x53, 0x1A] ∧
    ([0x4E, 0x45, 0x53, 0x1A, 0x01, 0x00, 0x00, 0x0C] : List Byte)[7]? = some 0x0C ∧ (0x0C : Byte).toNat / 4 % 4 ≠ 0 ∧
    (Launch.rom { rom := Rom.empty, ram0 := [], y0 := 0x00 }) = Rom.empty := by decide

end Sys2Proof.Tests
end

section
/-! PROOFS. SetZN, one byte store as every read sees it, and the stack primitives of page 1 (R35, R40, R41, R43). -/

namespace Sys2Proof.Machine

/-! ### Z and N -/

/-- Bit 7 of a byte as a bound on its number (R35). -/
theorem getLsbD_seven_eq_decide_le (r : Byte) : r.getLsbD 7 = decide (128 ≤ r.toNat) :=
  (BitVec.msb_eq_getLsbD_last r).symm.trans (BitVec.msb_eq_decide r)

/-- The zero test of a byte on its number (R35). -/
theorem beq_zero_eq_decide_toNat (r : Byte) : (r == 0) = decide (r.toNat = 0) :=
  (beq_eq_decide r 0).trans (decide_eq_decide.mpr BitVec.toNat_inj.symm)

theorem getFlag_z_setZN (r p : Byte) : getFlag .z (setZN r p) = decide (r.toNat = 0) := by
  rw [getFlag_setZN, if_neg (by decide), if_pos rfl, beq_zero_eq_decide_toNat]

theorem getFlag_n_setZN (r p : Byte) : getFlag .n (setZN r p) = decide (128 ≤ r.toNat) := by
  rw [getFlag_setZN, if_pos rfl, getLsbD_seven_eq_decide_le]

theorem getFlag_setZN_other {f : Flag} (hz : f ≠ .z) (hn : f ≠ .n) (r p : Byte) :
    getFlag f (setZN r p) = getFlag f p := by
  rw [getFlag_setZN, if_neg hn, if_neg hz]

/-! ### One byte store -/

/-- A write outside the RAM window has no effect (R53, R56 to R58). -/
theorem writeByte_of_not_inRam {addr : Word} (h : inRam addr = false) (v : Byte) (s : State) :
    writeByte addr v s = s := by
  simp [writeByte, h]

/-- A store changes RAM only. -/
theorem writeByte_frame (addr : Word) (v : Byte) (s : State) :
    writeByte addr v s = { s with ram := (writeByte addr v s).ram } := by
  unfold writeByte
  split <;> rfl

/-- A read outside the RAM window does not depend on RAM (R54, R56, R57). -/
theorem readByte_congr_of_not_inRam {addr : Word} (h : inRam addr = false) {s t : State} (hm : t.rom = s.rom) :
    readByte addr t = readByte addr s := by
  simp [readByte, h, hm]

/-- RAM after a store in RAM: the byte stored at its physical index, the old byte at every other (R53, R55). -/
theorem ramByte_writeByte {s : State} (hwf : s.ram.wf = true) {addr : Word} (h : inRam addr = true) (v : Byte)
    (other : Word) :
    ramByte other (writeByte addr v s) = if ramIndex other = ramIndex addr then v else ramByte other s := by
  rw [ramByte, writeByte_ram_of_inRam h, Memory.read_write hwf, ramByte]

/-- Every read after a store: the byte stored at each mirror of its address, the old answer elsewhere (R53, R55). -/
theorem storesByte_writeByte {s : State} (hwf : s.ram.wf = true) (addr : Word) (v : Byte) :
    StoresByte addr v s (writeByte addr v s) := by
  intro other
  rcases Bool.eq_false_or_eq_true (inRam addr) with ha | ha
  · rcases Bool.eq_false_or_eq_true (inRam other) with ho | ho
    · rw [readByte_of_inRam ho, readByte_of_inRam ho, ramByte_writeByte hwf ha, apply_ite Access.ok]
      simp [SameCell, ha, ho, eq_comm]
    · simp [SameCell, ho, readByte_congr_of_not_inRam ho (writeByte_rom addr v s)]
  · simp [SameCell, ha, writeByte_of_not_inRam ha]

/-! ### The stack -/

/-- The stack address as a number: page 1, no carry out of SP (R24, R43). -/
theorem stackAddr_eq_ofNat (sp : Byte) : stackAddr sp = BitVec.ofNat 16 (0x0100 + sp.toNat) := by
  rw [stackAddr, zext16, BitVec.ofNat_add, BitVec.ofNat_toNat]
  rfl

theorem toNat_sub_one_byte (b : Byte) : (b - 1).toNat = (b.toNat + 255) % 256 := by
  rw [BitVec.toNat_sub, Nat.add_comm]
  rfl

theorem toNat_add_one_byte (b : Byte) : (b + 1).toNat = (b.toNat + 1) % 256 :=
  BitVec.toNat_add b 1

/-- A push changes SP and RAM only (R40). -/
theorem push_frame (v : Byte) (s : State) :
    push v s = { s with sp := (push v s).sp, ram := (push v s).ram } := by
  simp only [push]
  rw [writeByte_frame]

/-- A push stores its byte at the address SP designated before it (R40). -/
theorem storesByte_push {s : State} (hwf : s.ram.wf = true) (v : Byte) :
    StoresByte (stackAddr s.sp) v s (push v s) := fun other =>
  (readByte_congr rfl rfl other).trans (storesByte_writeByte hwf (stackAddr s.sp) v other)

/-- The read of a pull, at the incremented SP, answers and never faults (R41, R43). -/
theorem readByte_stackAddr_succ (s : State) : readByte (stackAddr (s.sp + 1)) s = .ok (pullByte s) :=
  readByte_of_inRam (inRam_stackAddr (s.sp + 1)) s

theorem pullSp_sp_push (v : Byte) (s : State) : (pullSp (push v s)).sp = s.sp := by
  simp

/-- A pull reads the byte the last push stored (R40, R41). -/
theorem pullByte_push {s : State} (hwf : s.ram.wf = true) (v : Byte) : pullByte (push v s) = v := by
  have hsp : (push v s).sp + 1 = s.sp := pullSp_sp_push v s
  rw [pullByte, hsp, ramByte_congr (push_ram v s), ramByte_writeByte hwf (inRam_stackAddr s.sp), if_pos rfl]

/-- Settles O17: SetZN is two flag writes, and the eight flags are independent bits. -/
theorem setZnWritesZAndNOnly : Obligations.SetZnWritesZAndNOnly := fun r p =>
  ⟨getFlag_z_setZN r p, getFlag_n_setZN r p, fun _ hz hn => getFlag_setZN_other hz hn r p⟩

/-- Settles O18: page 1 is RAM, so a push is one RAM store, a pull one RAM read, and the pull reads the address the
push wrote. -/
theorem pushAndPullWrapInPageOne : Obligations.PushAndPullWrapInPageOne := by
  intro s v ⟨hwf, _⟩
  refine ⟨⟨push_frame v s, toNat_sub_one_byte s.sp, ?_⟩, ⟨rfl, toNat_add_one_byte s.sp, ?_⟩,
    pullByte_push hwf v, pullSp_sp_push v s⟩
  · rw [← stackAddr_eq_ofNat]
    exact storesByte_push hwf v
  · rw [← toNat_add_one_byte, ← stackAddr_eq_ofNat]
    exact readByte_stackAddr_succ s

end Sys2Proof.Machine
end

section
/-! PROOFS. The windows above RAM: no store reaches them, and up to 0x7FFF they read 0 (R52, R53, R56 to R58). -/

namespace Sys2Proof.Machine

/-- An address above 0x1FFF lies outside the RAM window (R51). -/
theorem inRam_eq_false_of_lt {addr : Word} (h : 0x1FFF < addr.toNat) : inRam addr = false :=
  decide_eq_false (Nat.not_le_of_lt h)

/-- The windows from above RAM to 0x7FFF read 0 (R52, R56, R57). -/
theorem readByte_of_inert {addr : Word} (hlo : 0x1FFF < addr.toNat) (hhi : addr.toNat ≤ 0x7FFF) (s : State) :
    readByte addr s = .ok 0x00 := by
  have hle : addr.toNat ≤ Config.inertLast := hhi
  simp [readByte, inRam_eq_false_of_lt hlo, hle]

/-- Settles O14: a store is one write to canonical RAM, which every mirror reads back, and above RAM it is the
identity. -/
theorem storesReachRamOnly : Obligations.StoresReachRamOnly := fun s addr v =>
  ⟨fun ⟨hwf, _⟩ => ⟨writeByte_frame addr v s, storesByte_writeByte hwf addr v⟩,
    fun hlo => ⟨writeByte_of_not_inRam (inRam_eq_false_of_lt hlo) v s, fun hhi => readByte_of_inert hlo hhi s⟩⟩

end Sys2Proof.Machine
end

section
/-! PROOFS. Addresses as numbers: each mode's effective address and the branch target (R99 to R105), and the branches
that go there (R205 to R213). -/

namespace Sys2Proof.Machine

/-! ### Zero page and indexing -/

theorem zext16_eq_ofNat (b : Byte) : zext16 b = BitVec.ofNat 16 b.toNat :=
  (BitVec.ofNat_toNat 16 b).symm

/-- An indexed zero-page address wraps in page 0 (R100). -/
theorem zpIndexed_eq_ofNat (zp index : Byte) :
    zpIndexed zp index = BitVec.ofNat 16 ((zp.toNat + index.toNat) % 256) := by
  rw [zpIndexed, zext16_eq_ofNat, BitVec.toNat_add]

/-- An indexed absolute address wraps at 16 bits (R101). -/
theorem absIndexed_eq_ofNat (addr : Word) (index : Byte) :
    absIndexed addr index = BitVec.ofNat 16 ((addr.toNat + index.toNat) % 65536) := by
  apply BitVec.eq_of_toNat_eq
  simp [absIndexed, zext16_eq_ofNat]

/-- The word at a zero-page pointer: both bytes from page 0, the second address modulo 256 (R100). -/
theorem zpWord_eq_ofNat (p : Byte) (s : State) :
    zpWord p s = BitVec.ofNat 16 ((s.ram.read ((p.toNat + 1) % 256)).toNat * 256 + (s.ram.read p.toNat).toNat) := by
  rw [zpWord, ramByte, ramByte, ramIndex_zext16, ramIndex_zext16, toNat_add_one_byte, mkWord]

/-- (zp,X): the pointer is indexed in page 0 before it is read (R102). -/
theorem zpWord_add_eq_ofNat (zp index : Byte) (s : State) :
    zpWord (zp + index) s = BitVec.ofNat 16
      ((s.ram.read ((zp.toNat + index.toNat + 1) % 256)).toNat * 256 +
        (s.ram.read ((zp.toNat + index.toNat) % 256)).toNat) := by
  rw [zpWord_eq_ofNat, BitVec.toNat_add, Nat.mod_add_mod]

/-- (zp),Y: the word read is indexed at 16 bits (R103). -/
theorem absIndexed_zpWord_eq_ofNat (zp index : Byte) (s : State) :
    absIndexed (zpWord zp s) index = BitVec.ofNat 16
      (((s.ram.read ((zp.toNat + 1) % 256)).toNat * 256 + (s.ram.read zp.toNat).toNat + index.toNat) % 65536) := by
  rw [absIndexed_eq_ofNat, zpWord_eq_ofNat, BitVec.toNat_ofNat, Nat.mod_add_mod]

/-! ### The pointer of JMP -/

theorem toNat_loByte (w : Word) : (loByte w).toNat = w.toNat % 256 := by
  simp [loByte]

/-- The first address of a word's page. -/
theorem toNat_and_page (w : Word) : (w &&& 0xFF00).toNat = w.toNat / 256 * 256 := by
  have hpage : (0xFF00 : Word) = BitVec.allOnes 16 <<< 8 := rfl
  have hw := w.isLt
  rw [hpage, ← BitVec.shiftLeft_ushiftRight, BitVec.toNat_shiftLeft, BitVec.toNat_ushiftRight,
    Nat.shiftRight_eq_div_pow, Nat.shiftLeft_eq]
  omega

/-- The page bug: at the end of a page the high byte comes from that page's start (R104). -/
theorem pointerHigh_eq_ofNat (ptr : Word) :
    pointerHigh ptr = BitVec.ofNat 16 (if ptr.toNat % 256 = 255 then ptr.toNat - 255 else ptr.toNat + 1) := by
  have hlo : loByte ptr = 0xFF ↔ ptr.toNat % 256 = 255 := by
    rw [← toNat_loByte]
    exact BitVec.toNat_inj.symm
  rw [pointerHigh]
  by_cases h : ptr.toNat % 256 = 255
  · rw [if_pos (hlo.mpr h), if_pos h]
    apply BitVec.eq_of_toNat_eq
    have hptr := ptr.isLt
    rw [toNat_and_page, BitVec.toNat_ofNat]
    omega
  · rw [if_neg (mt hlo.mp h), if_neg h, BitVec.ofNat_add, BitVec.ofNat_toNat, BitVec.setWidth_eq]
    rfl

/-- The two reads of an Indirect pointer, when neither faults (R104). -/
theorem indirectTarget_of_ok {ptr : Word} {lo hi : Byte} {s : State} (hlo : readByte ptr s = .ok lo)
    (hhi : readByte (pointerHigh ptr) s = .ok hi) : indirectTarget ptr s = .ok (mkWord hi lo) := by
  rw [indirectTarget, hlo, Access.bind_ok, hhi, Access.bind_ok]

/-- Settles O11: each mode's address by the lemma of its sum, and the JMP pointer by its two reads. -/
theorem effectiveAddressesAsNumbers : Obligations.EffectiveAddressesAsNumbers := by
  intro s zp w
  refine ⟨rfl, rfl, ?_, ?_, ?_, rfl, ?_, ?_, ?_, ?_, ?_⟩
  · rw [ea, zext16_eq_ofNat]
  · rw [ea, zpIndexed_eq_ofNat]
  · rw [ea, zpIndexed_eq_ofNat]
  · rw [ea, absIndexed_eq_ofNat]
  · rw [ea, absIndexed_eq_ofNat]
  · rw [ea, zpWord_add_eq_ofNat]
  · rw [ea, absIndexed_zpWord_eq_ofNat]
  · intro lo hi hlo hhi
    rw [← pointerHigh_eq_ofNat] at hhi
    rw [ea, indirectTarget_of_ok hlo hhi, mkWord]

/-! ### The branches -/

/-- The target of a branch: a signed offset from the address after the branch, modulo 65536 (R105). -/
theorem toNat_relTarget (off : Byte) (s : State) :
    ((relTarget off s).toNat : Int) = ((s.pc.toNat : Int) + 1 + signed off) % 65536 := by
  have hoff := off.isLt
  have hmsb : off.msb = off.getLsbD 7 := BitVec.msb_eq_getLsbD_last off
  have hone : (1 : Word).toNat = 1 := rfl
  rw [relTarget, sext16, signed, BitVec.toNat_add, BitVec.toNat_add, BitVec.toNat_signExtend, BitVec.toNat_setWidth,
    hmsb, hone]
  cases off.getLsbD 7 with
  | false =>
    rw [if_neg Bool.false_ne_true, Bool.toNat_false]
    omega
  | true =>
    rw [if_pos rfl, Bool.toNat_true]
    omega

/-- Not taken, a branch gets the advance of its length (R93, R205). -/
theorem toNat_advance_relative_pc (off : Byte) (s : State) :
    ((advance (.relative off) s).pc.toNat : Int) = ((s.pc.toNat : Int) + 1) % 65536 :=
  congrArg Nat.cast (BitVec.toNat_add s.pc 1)

/-- A branch moves PC only, to its target or past its offset byte (R205). -/
theorem branch_answers {cond taken : Bool} {f : Flag} {s : State} (hcond : cond = true ↔ getFlag f s.p = taken)
    (off : Byte) :
    ∃ t, branch cond off s = .next t ∧ t = { s with pc := t.pc } ∧ SameMemory s t ∧
      (t.pc.toNat : Int) =
        ((s.pc.toNat : Int) + 1 + if getFlag f s.p = taken then signed off else 0) % 65536 := by
  cases cond with
  | true =>
    rw [if_pos (hcond.mp rfl)]
    exact ⟨_, rfl, rfl, readByte_congr rfl rfl, toNat_relTarget off s⟩
  | false =>
    rw [if_neg (mt hcond.mpr Bool.false_ne_true), add_zero]
    exact ⟨_, rfl, rfl, readByte_congr rfl rfl, toNat_advance_relative_pc off s⟩

/-- Settles O44: each of the eight is `branch` on its flag, or on the flag's complement. -/
theorem branchesTestTheirFlag : Obligations.BranchesTestTheirFlag := by
  intro s off mk op f taken hmem
  simp only [List.mem_cons, List.not_mem_nil, or_false, Prod.mk.injEq] at hmem
  rcases hmem with ⟨rfl, rfl, rfl, rfl⟩ | ⟨rfl, rfl, rfl, rfl⟩ | ⟨rfl, rfl, rfl, rfl⟩ | ⟨rfl, rfl, rfl, rfl⟩ |
    ⟨rfl, rfl, rfl, rfl⟩ | ⟨rfl, rfl, rfl, rfl⟩ | ⟨rfl, rfl, rfl, rfl⟩ | ⟨rfl, rfl, rfl, rfl⟩
  · exact ⟨rfl, rfl, rfl, branch_answers (Bool.not_eq_true' _).to_iff off⟩
  · exact ⟨rfl, rfl, rfl, branch_answers Iff.rfl off⟩
  · exact ⟨rfl, rfl, rfl, branch_answers Iff.rfl off⟩
  · exact ⟨rfl, rfl, rfl, branch_answers (Bool.not_eq_true' _).to_iff off⟩
  · exact ⟨rfl, rfl, rfl, branch_answers Iff.rfl off⟩
  · exact ⟨rfl, rfl, rfl, branch_answers (Bool.not_eq_true' _).to_iff off⟩
  · exact ⟨rfl, rfl, rfl, branch_answers (Bool.not_eq_true' _).to_iff off⟩
  · exact ⟨rfl, rfl, rfl, branch_answers Iff.rfl off⟩

end Sys2Proof.Machine
end

section
/-! PROOFS. Add and subtract: the rows of ADC and SBC, and the one shape of their answer (R120, R121). -/

namespace Sys2Proof.Machine

/-! ### The rows -/

/-- Every ADC instruction is one of the eight rows of R120. -/
theorem row_of_mnemonic_adc {i : Instr} (h : i.mnemonic = .adc) :
    (i.mnemonic, i.mode, i.opcode) ∈
      [(.adc, .immediate, 0x69), (.adc, .zeroPage, 0x65), (.adc, .zeroPageX, 0x75),
        (.adc, .absolute, 0x6D), (.adc, .absoluteX, 0x7D), (.adc, .absoluteY, 0x79),
        (.adc, .indirectX, 0x61), (.adc, .indirectY, 0x71)] := by
  cases i with
  | adcImm | adcZp | adcZpX | adcAbs | adcAbsX | adcAbsY | adcIndX | adcIndY => exact List.mem_of_elem_eq_true rfl
  | _ => cases h

/-- Every SBC instruction is one of the eight rows of R121. -/
theorem row_of_mnemonic_sbc {i : Instr} (h : i.mnemonic = .sbc) :
    (i.mnemonic, i.mode, i.opcode) ∈
      [(.sbc, .immediate, 0xE9), (.sbc, .zeroPage, 0xE5), (.sbc, .zeroPageX, 0xF5),
        (.sbc, .absolute, 0xED), (.sbc, .absoluteX, 0xFD), (.sbc, .absoluteY, 0xF9),
        (.sbc, .indirectX, 0xE1), (.sbc, .indirectY, 0xF1)] := by
  cases i with
  | sbcImm | sbcZp | sbcZpX | sbcAbs | sbcAbsX | sbcAbsY | sbcIndX | sbcIndY => exact List.mem_of_elem_eq_true rfl
  | _ => cases h

/-- In every mode ADC reads its operand and adds it (R98, R120). -/
theorem exec_of_mnemonic_adc {i : Instr} (h : i.mnemonic = .adc) (s : State) :
    exec i s = readOp i.operand adc s := by
  cases i with
  | adcImm | adcZp | adcZpX | adcAbs | adcAbsX | adcAbsY | adcIndX | adcIndY => rfl
  | _ => cases h

/-- In every mode SBC reads its operand and subtracts it (R98, R121). -/
theorem exec_of_mnemonic_sbc {i : Instr} (h : i.mnemonic = .sbc) (s : State) :
    exec i s = readOp i.operand sbc s := by
  cases i with
  | sbcImm | sbcZp | sbcZpX | sbcAbs | sbcAbsX | sbcAbsY | sbcIndX | sbcIndY => rfl
  | _ => cases h

/-! ### The results as numbers -/

theorem toNat_adcResult (a m p : Byte) :
    (adcResult a m p).toNat = (a.toNat + m.toNat + (getFlag .c p).toNat) % 256 :=
  BitVec.toNat_ofNat _ 8

theorem toNat_sbcResult (a m p : Byte) :
    ((sbcResult a m p).toNat : Int) = ((a.toNat : Int) - m.toNat - (1 - (getFlag .c p).toNat)) % 256 := by
  have hnonneg : 0 ≤ sbcDiff a m p % 256 := Int.emod_nonneg _ (by decide)
  rw [sbcResult, BitVec.toNat_ofInt]
  exact Int.toNat_of_nonneg hnonneg

/-! ### The answer -/

/-- Z and N after SetZN (R35). -/
theorem znOf_of_p_eq_setZN {r q : Byte} {t : State} (h : t.p = setZN r q) : ZnOf r t := by
  rw [ZnOf, h, getFlag_setZN, if_neg (by decide), if_pos rfl]
  exact ⟨beq_eq_decide r 0, getFlag_n_setZN r q⟩

/-- What an operation answers that reads its operand and writes A with C, V, Z and N: the result, the four flags, the
advance, and everything else as it was. -/
theorem accumulatorOp_answers {i : Instr} {f : Byte → State → State} {s : State} {m r : Byte} {v c : Bool}
    (hexec : exec i s = readOp i.operand f s) (hop : OperandIs i s m)
    (hf : f m s = { s with a := r, p := setZN r (putFlag .v v (putFlag .c c s.p)) }) :
    ∃ t, exec i s = .next t ∧ t = { s with a := t.a, p := t.p, pc := pcAfter i s } ∧ t.a = r ∧
      getFlag .c t.p = c ∧ getFlag .v t.p = v ∧
      ZnOf t.a t ∧ KeepsFlags [.c, .v, .z, .n] s t ∧ SameMemory s t := by
  rw [hexec, readOp_of_ok hop, hf]
  refine ⟨_, rfl, rfl, rfl, ?_, ?_, znOf_of_p_eq_setZN rfl, ?_, readByte_congr rfl rfl⟩
  · simp [getFlag_setZN, getFlag_putFlag]
  · simp [getFlag_setZN]
  · intro g hg
    simp only [List.mem_cons, List.not_mem_nil, or_false, not_or] at hg
    obtain ⟨hc, hv, hz, hn⟩ := hg
    rw [advance_p, getFlag_setZN_other hz hn, getFlag_putFlag_other hv, getFlag_putFlag_other hc]

/-- Settles O19: each form is a row of R120 and a read of its operand, and the answer is that of one addition. -/
theorem adcAddsWithCarry : Obligations.AdcAddsWithCarry := by
  intro i s hmn
  refine ⟨row_of_mnemonic_adc hmn, fun m hop => ?_⟩
  obtain ⟨t, hnext, hframe, ha, hc, hv, hrest⟩ := accumulatorOp_answers (exec_of_mnemonic_adc hmn s) hop rfl
  refine ⟨t, hnext, hframe, ?_, hc, ?_, hrest⟩
  · rw [ha, toNat_adcResult]
  · rw [ha, hv, bne, beq_eq_decide, decide_not]

/-- Settles O20: each form is a row of R121 and a read of its operand, and the answer is that of one subtraction. -/
theorem sbcSubtractsWithBorrow : Obligations.SbcSubtractsWithBorrow := by
  intro i s hmn
  refine ⟨row_of_mnemonic_sbc hmn, fun m hop => ?_⟩
  obtain ⟨t, hnext, hframe, ha, hc, hv, hrest⟩ := accumulatorOp_answers (exec_of_mnemonic_sbc hmn s) hop rfl
  refine ⟨t, hnext, hframe, ?_, hc, ?_, hrest⟩
  · rw [ha, toNat_sbcResult]
  · rw [ha, hv, bne, beq_eq_decide, decide_not]

end Sys2Proof.Machine
end

section
/-! PROOFS. Shifts and rotates: the rows, the result bytes as numbers, and the answers of the accumulator form and of
a read-modify-write (R130 to R134). -/

namespace Sys2Proof.Machine

/-! ### The rows -/

/-- The byte operation of each mnemonic of R130 to R133. -/
inductive ShiftRule : Mnemonic → (Byte → Byte → Byte × Byte) → Prop where
  | asl : ShiftRule .asl aslByte
  | lsr : ShiftRule .lsr lsrByte
  | rol : ShiftRule .rol rolByte
  | ror : ShiftRule .ror rorByte

/-- Every shift or rotate is one of the twenty rows of R130 to R133. -/
theorem row_of_mnemonic_shift {i : Instr} (h : i.mnemonic ∈ [.asl, .lsr, .rol, .ror]) :
    (i.mnemonic, i.mode, i.opcode) ∈
      [(.asl, .zeroPage, 0x06), (.asl, .zeroPageX, 0x16), (.asl, .absolute, 0x0E),
        (.asl, .absoluteX, 0x1E), (.asl, .noneAddressing, 0x0A), (.lsr, .zeroPage, 0x46),
        (.lsr, .zeroPageX, 0x56), (.lsr, .absolute, 0x4E), (.lsr, .absoluteX, 0x5E),
        (.lsr, .noneAddressing, 0x4A), (.rol, .zeroPage, 0x26), (.rol, .zeroPageX, 0x36),
        (.rol, .absolute, 0x2E), (.rol, .absoluteX, 0x3E), (.rol, .noneAddressing, 0x2A),
        (.ror, .zeroPage, 0x66), (.ror, .zeroPageX, 0x76), (.ror, .absolute, 0x6E),
        (.ror, .absoluteX, 0x7E), (.ror, .noneAddressing, 0x6A)] := by
  cases i with
  | aslA | aslZp | aslZpX | aslAbs | aslAbsX | lsrA | lsrZp | lsrZpX | lsrAbs | lsrAbsX
  | rolA | rolZp | rolZpX | rolAbs | rolAbsX | rorA | rorZp | rorZpX | rorAbs | rorAbsX =>
    exact List.mem_of_elem_eq_true rfl
  | _ => exact absurd (List.elem_eq_true_of_mem h) Bool.false_ne_true

/-- A shift or rotate applies the operation of its mnemonic: to A without an address, to the byte at EA with one
(R134). -/
theorem exec_of_mnemonic_shift {i : Instr} (h : i.mnemonic ∈ [.asl, .lsr, .rol, .ror]) (s : State) :
    ∃ f, ShiftRule i.mnemonic f ∧ (i.mode = .noneAddressing → exec i s = shiftA f s) ∧
      (i.mode ≠ .noneAddressing → exec i s = rmwOp i.operand f s) := by
  cases i with
  | aslA => exact ⟨_, .asl, fun _ => rfl, absurd rfl⟩
  | lsrA => exact ⟨_, .lsr, fun _ => rfl, absurd rfl⟩
  | rolA => exact ⟨_, .rol, fun _ => rfl, absurd rfl⟩
  | rorA => exact ⟨_, .ror, fun _ => rfl, absurd rfl⟩
  | aslZp | aslZpX | aslAbs | aslAbsX => exact ⟨_, .asl, nofun, fun _ => rfl⟩
  | lsrZp | lsrZpX | lsrAbs | lsrAbsX => exact ⟨_, .lsr, nofun, fun _ => rfl⟩
  | rolZp | rolZpX | rolAbs | rolAbsX => exact ⟨_, .rol, nofun, fun _ => rfl⟩
  | rorZp | rorZpX | rorAbs | rorAbsX => exact ⟨_, .ror, nofun, fun _ => rfl⟩
  | _ => exact absurd (List.elem_eq_true_of_mem h) Bool.false_ne_true

/-! ### The results as numbers -/

/-- Bit 0 of a byte as the parity of its number. -/
theorem getLsbD_zero_eq_decide_mod (b : Byte) : b.getLsbD 0 = decide (b.toNat % 2 = 1) :=
  Nat.testBit_zero b.toNat

theorem toNat_shiftLeft_one (b : Byte) : (b <<< 1).toNat = 2 * b.toNat % 256 := by
  rw [BitVec.toNat_shiftLeft, Nat.shiftLeft_eq, Nat.mul_comm]

theorem toNat_ushiftRight_one (b : Byte) : (b >>> 1).toNat = b.toNat / 2 := by
  rw [BitVec.toNat_ushiftRight, Nat.shiftRight_eq_div_pow, Nat.pow_one]

/-- The carry enters an empty bit 0, so the OR of ROL is a sum (R132). -/
theorem toNat_rolByte (v p : Byte) : (rolByte v p).1.toNat = (2 * v.toNat + (getFlag .c p).toNat) % 256 := by
  have hc : carryNat p < 2 ^ 1 := Nat.lt_succ_of_le (carryNat_le p)
  rw [rolByte, BitVec.toNat_or, BitVec.toNat_shiftLeft, BitVec.toNat_ofNat, ← Nat.or_mod_two_pow,
    ← Nat.shiftLeft_add_eq_or_of_lt hc, Nat.shiftLeft_eq, Nat.mul_comm]
  rfl

/-- The carry enters an empty bit 7, so the OR of ROR is a sum (R133). -/
theorem toNat_rorByte (v p : Byte) : (rorByte v p).1.toNat = v.toNat / 2 + 128 * (getFlag .c p).toNat := by
  have hc := carryNat_le p
  have hcarry : (BitVec.ofNat 8 (carryNat p) <<< 7).toNat = carryNat p <<< 7 := by
    rw [BitVec.toNat_shiftLeft, BitVec.toNat_ofNat, Nat.shiftLeft_eq, Nat.shiftLeft_eq]
    omega
  have hv : v.toNat / 2 < 2 ^ 7 := by omega
  rw [rorByte, BitVec.toNat_or, toNat_ushiftRight_one, hcarry, Nat.or_comm, ← Nat.shiftLeft_add_eq_or_of_lt hv,
    Nat.shiftLeft_eq, Nat.add_comm, Nat.mul_comm, carryNat]

/-! ### The flags -/

/-- A status byte written as C, then Z and N of a result. -/
theorem flags_of_p_eq_setZN_carry {r : Byte} {c : Bool} {s t : State} (h : t.p = setZN r (putFlag .c c s.p)) :
    getFlag .c t.p = c ∧ ZnOf r t ∧ KeepsFlags [.c, .z, .n] s t := by
  refine ⟨?_, znOf_of_p_eq_setZN h, fun g hg => ?_⟩
  · rw [h, getFlag_setZN_other (by decide) (by decide), getFlag_putFlag_self]
  · simp only [List.mem_cons, List.not_mem_nil, or_false, not_or] at hg
    obtain ⟨hc, hz, hn⟩ := hg
    rw [h, getFlag_setZN_other hz hn, getFlag_putFlag_other hc]

/-- Each operation gives the result and the flags its rule says (R130 to R133). -/
theorem shiftsTo_of_rule {m : Mnemonic} {f : Byte → Byte → Byte × Byte} (hf : ShiftRule m f) {v : Byte} {s t : State}
    (hp : t.p = (f v s.p).2) : ShiftsTo m v (f v s.p).1 s t := by
  cases hf with
  | asl =>
    obtain ⟨hc, hrest⟩ := flags_of_p_eq_setZN_carry hp
    exact ⟨fun _ => toNat_shiftLeft_one v, nofun, nofun, nofun, fun _ => hc.trans (getLsbD_seven_eq_decide_le v),
      fun h => absurd h (by decide), hrest⟩
  | lsr =>
    obtain ⟨hc, hrest⟩ := flags_of_p_eq_setZN_carry hp
    exact ⟨nofun, fun _ => toNat_ushiftRight_one v, nofun, nofun, fun h => absurd h (by decide),
      fun _ => hc.trans (getLsbD_zero_eq_decide_mod v), hrest⟩
  | rol =>
    obtain ⟨hc, hrest⟩ := flags_of_p_eq_setZN_carry hp
    exact ⟨nofun, nofun, fun _ => toNat_rolByte v s.p, nofun, fun _ => hc.trans (getLsbD_seven_eq_decide_le v),
      fun h => absurd h (by decide), hrest⟩
  | ror =>
    obtain ⟨hc, hrest⟩ := flags_of_p_eq_setZN_carry hp
    exact ⟨nofun, nofun, nofun, fun _ => toNat_rorByte v s.p, fun h => absurd h (by decide),
      fun _ => hc.trans (getLsbD_zero_eq_decide_mod v), hrest⟩

/-! ### The answers -/

/-- The accumulator form writes A and P and nothing else (R134). -/
theorem shiftA_answers (f : Byte → Byte → Byte × Byte) (s : State) :
    ∃ t, shiftA f s = .next t ∧ t = { s with a := t.a, p := t.p } ∧ t.a = (f s.a s.p).1 ∧ t.p = (f s.a s.p).2 ∧
      SameMemory s t := by
  rw [shiftA, advance_none]
  exact ⟨_, rfl, rfl, rfl, rfl, readByte_congr rfl rfl⟩

/-- A read-modify-write stores its result at the address it read, writes P, and gets the advance (R93, R134, R144). -/
theorem rmwOp_answers {i : Instr} {f : Byte → Byte → Byte × Byte} {s : State} {addr : Word} {v : Byte}
    (hexec : exec i s = rmwOp i.operand f s) (hwf : s.ram.wf = true) (haddr : AddressIs i s addr)
    (hv : readByte addr s = .ok v) :
    ∃ t, exec i s = .next t ∧ t = { s with p := t.p, ram := t.ram, pc := pcAfter i s } ∧ t.p = (f v s.p).2 ∧
      StoresByte addr (f v s.p).1 s t := by
  have hstore := storesByte_writeByte (s := { s with p := (f v s.p).2 }) hwf addr (f v s.p).1
  rw [hexec, rmwOp_of_ok haddr hv]
  refine ⟨_, rfl, ?_, ?_, fun other => (readByte_congr rfl rfl other).trans (hstore other)⟩
  · rw [writeByte_frame]
    rfl
  · rw [advance_p, writeByte_p]

/-- Settles O25: each form is a row of R130 to R133 that applies its rule's operation to A or, read-modify-write, to
the byte at EA. -/
theorem shiftsAndRotates : Obligations.ShiftsAndRotates := by
  intro i s hmn
  obtain ⟨f, hrule, hacc, hmem⟩ := exec_of_mnemonic_shift hmn s
  refine ⟨row_of_mnemonic_shift hmn, fun hmode => ?_, fun hmode ⟨hwf, _⟩ addr v haddr hv => ?_⟩
  · obtain ⟨t, hnext, hframe, ha, hp, hsame⟩ := shiftA_answers f s
    refine ⟨t, (hacc hmode).trans hnext, hframe, ?_, hsame⟩
    rw [ha]
    exact shiftsTo_of_rule hrule hp
  · obtain ⟨t, hnext, hframe, hp, hstore⟩ := rmwOp_answers (hmem hmode) hwf haddr hv
    exact ⟨t, _, hnext, hframe, shiftsTo_of_rule hrule hp, hstore⟩

end Sys2Proof.Machine
end

section
/-! PROOFS. Compare, increment and decrement: the rows, the compare as a subtraction, and the byte plus or minus 1
(R140 to R149). -/

namespace Sys2Proof.Machine

/-! ### The rows -/

/-- Every compare is one of the fourteen rows of R141 to R143. -/
theorem row_of_mnemonic_compare {i : Instr} (h : i.mnemonic ∈ [.cmp, .cpx, .cpy]) :
    (i.mnemonic, i.mode, i.opcode) ∈
      [(.cmp, .immediate, 0xC9), (.cmp, .zeroPage, 0xC5), (.cmp, .zeroPageX, 0xD5),
        (.cmp, .absolute, 0xCD), (.cmp, .absoluteX, 0xDD), (.cmp, .absoluteY, 0xD9),
        (.cmp, .indirectX, 0xC1), (.cmp, .indirectY, 0xD1), (.cpx, .immediate, 0xE0),
        (.cpx, .zeroPage, 0xE4), (.cpx, .absolute, 0xEC), (.cpy, .immediate, 0xC0),
        (.cpy, .zeroPage, 0xC4), (.cpy, .absolute, 0xCC)] := by
  cases i with
  | cmpImm | cmpZp | cmpZpX | cmpAbs | cmpAbsX | cmpAbsY | cmpIndX | cmpIndY | cpxImm | cpxZp | cpxAbs
  | cpyImm | cpyZp | cpyAbs => exact List.mem_of_elem_eq_true rfl
  | _ => exact absurd (List.elem_eq_true_of_mem h) Bool.false_ne_true

/-- Every INC or DEC of memory is one of the eight rows of R144 and R145. -/
theorem row_of_mnemonic_incDec {i : Instr} (h : i.mnemonic ∈ [.inc, .dec]) :
    (i.mnemonic, i.mode, i.opcode) ∈
      [(.inc, .zeroPage, 0xE6), (.inc, .zeroPageX, 0xF6), (.inc, .absolute, 0xEE),
        (.inc, .absoluteX, 0xFE), (.dec, .zeroPage, 0xC6), (.dec, .zeroPageX, 0xD6),
        (.dec, .absolute, 0xCE), (.dec, .absoluteX, 0xDE)] := by
  cases i with
  | incZp | incZpX | incAbs | incAbsX | decZp | decZpX | decAbs | decAbsX => exact List.mem_of_elem_eq_true rfl
  | _ => exact absurd (List.elem_eq_true_of_mem h) Bool.false_ne_true

/-- INX, INY, DEX and DEY are the one-byte rows of R146 to R149. -/
theorem row_of_mnemonic_indexIncDec {i : Instr} (h : i.mnemonic ∈ [.inx, .iny, .dex, .dey]) :
    (i.mnemonic, i.opcode) ∈ [(.inx, 0xE8), (.iny, 0xC8), (.dex, 0xCA), (.dey, 0x88)] ∧ i.length = 1 := by
  cases i with
  | inx | iny | dex | dey => exact ⟨List.mem_of_elem_eq_true rfl, rfl⟩
  | _ => exact absurd (List.elem_eq_true_of_mem h) Bool.false_ne_true

/-! ### Compare -/

/-- In every mode a compare reads its operand and compares it with the register of its mnemonic (R98, R141 to R143). -/
theorem exec_of_mnemonic_compare {i : Instr} (h : i.mnemonic ∈ [.cmp, .cpx, .cpy]) (s : State) :
    exec i s =
      readOp i.operand
        (compareReg (if i.mnemonic = .cmp then s.a else if i.mnemonic = .cpx then s.x else s.y)) s := by
  cases i with
  | cmpImm | cmpZp | cmpZpX | cmpAbs | cmpAbsX | cmpAbsY | cmpIndX | cmpIndY | cpxImm | cpxZp | cpxAbs
  | cpyImm | cpyZp | cpyAbs => rfl
  | _ => exact absurd (List.elem_eq_true_of_mem h) Bool.false_ne_true

/-- The wrapped difference as a number (R140). -/
theorem toNat_sub_byte (r m : Byte) : (r - m).toNat = (r.toNat + 256 - m.toNat) % 256 := by
  have hm : m.toNat < 256 := m.isLt
  rw [BitVec.toNat_sub, Nat.add_comm, ← Nat.add_sub_assoc hm.le]

/-- Settles O26: each form is a row of R141 to R143 and a read of its operand, and it writes P as C, then Z and N of
the difference. -/
theorem comparesSetFlagsOnly : Obligations.ComparesSetFlagsOnly := by
  intro i s hmn
  refine ⟨row_of_mnemonic_compare hmn, fun m hop => ?_⟩
  intro reg
  have hexec : exec i s = .next (advance i.operand (compareReg reg m s)) :=
    (exec_of_mnemonic_compare hmn s).trans (readOp_of_ok hop _)
  have hp : (advance i.operand (compareReg reg m s)).p =
      setZN (reg - m) (putFlag .c (decide (m.toNat ≤ reg.toNat)) s.p) := rfl
  obtain ⟨hc, ⟨hz, hn⟩, hkeep⟩ := flags_of_p_eq_setZN_carry hp
  refine ⟨_, hexec, rfl, hc, ?_, ?_, hkeep, readByte_congr rfl rfl⟩
  · rw [hz, decide_eq_decide]
    exact sub_eq_zero
  · rw [hn, toNat_sub_byte]

/-! ### Increment and decrement -/

/-- A byte plus 1, or minus 1, modulo 256 (R144 to R149). -/
def addOrSubOne (up : Prop) [Decidable up] (v : Byte) : Byte := if up then v + 1 else v - 1

theorem toNat_addOrSubOne (up : Prop) [Decidable up] (v : Byte) :
    (addOrSubOne up v).toNat = (v.toNat + if up then 1 else 255) % 256 := by
  unfold addOrSubOne
  split
  · exact toNat_add_one_byte v
  · exact toNat_sub_one_byte v

/-- INC and DEC of a byte give the byte plus or minus 1 and SetZN of it (R144, R145). -/
theorem incByte_or_decByte (up : Prop) [Decidable up] (v p : Byte) :
    (if up then incByte else decByte) v p = (addOrSubOne up v, setZN (addOrSubOne up v) p) := by
  unfold addOrSubOne
  split <;> rfl

/-- In every mode INC and DEC are a read-modify-write of the byte at EA (R98, R144, R145). -/
theorem exec_of_mnemonic_incDec {i : Instr} (h : i.mnemonic ∈ [.inc, .dec]) (s : State) :
    exec i s = rmwOp i.operand (if i.mnemonic = .inc then incByte else decByte) s := by
  cases i with
  | incZp | incZpX | incAbs | incAbsX | decZp | decZpX | decAbs | decAbsX => rfl
  | _ => exact absurd (List.elem_eq_true_of_mem h) Bool.false_ne_true

/-- INX and DEX are one write of X, INY and DEY one write of Y; without operand bytes there is no advance (R93, R146
to R149). -/
theorem exec_of_mnemonic_indexIncDec {i : Instr} (h : i.mnemonic ∈ [.inx, .iny, .dex, .dey]) (s : State) :
    (¬(i.mnemonic = .iny ∨ i.mnemonic = .dey) ∧
      exec i s = .next (setX (addOrSubOne (i.mnemonic = .inx) s.x) s)) ∨
    (¬(i.mnemonic = .inx ∨ i.mnemonic = .dex) ∧
      exec i s = .next (setY (addOrSubOne (i.mnemonic = .iny) s.y) s)) := by
  cases i with
  | inx | dex => exact .inl ⟨by decide, congrArg Host.Outcome.next (advance_none _)⟩
  | iny | dey => exact .inr ⟨by decide, congrArg Host.Outcome.next (advance_none _)⟩
  | _ => exact absurd (List.elem_eq_true_of_mem h) Bool.false_ne_true

/-- SetZN keeps every flag but Z and N (R35). -/
theorem keepsFlags_of_p_eq_setZN {r : Byte} {s t : State} (h : t.p = setZN r s.p) : KeepsFlags [.z, .n] s t := by
  intro f hf
  simp only [List.mem_cons, List.not_mem_nil, or_false, not_or] at hf
  obtain ⟨hz, hn⟩ := hf
  rw [h, getFlag_setZN_other hz hn]

/-- Settles O27: each form is a row of R144 or R145 and a read-modify-write of the byte at EA. -/
theorem incDecOfMemory : Obligations.IncDecOfMemory := by
  intro i s hmn ⟨hwf, _⟩
  refine ⟨row_of_mnemonic_incDec hmn, fun addr v haddr hv => ?_⟩
  obtain ⟨t, hnext, hframe, hp, hstore⟩ := rmwOp_answers (exec_of_mnemonic_incDec hmn s) hwf haddr hv
  rw [incByte_or_decByte] at hp hstore
  exact ⟨t, _, hnext, hframe, toNat_addOrSubOne _ v, znOf_of_p_eq_setZN hp, keepsFlags_of_p_eq_setZN hp, hstore⟩

/-- Settles O28: each is a row of R146 to R149 and one write of its index register with SetZN. -/
theorem incDecOfIndexRegisters : Obligations.IncDecOfIndexRegisters := by
  intro i s hmn
  obtain ⟨hrow, hlen⟩ := row_of_mnemonic_indexIncDec hmn
  refine ⟨hrow, hlen, ?_⟩
  obtain ⟨hnotY, hnext⟩ | ⟨hnotX, hnext⟩ := exec_of_mnemonic_indexIncDec hmn s
  · exact ⟨_, hnext, fun _ => ⟨rfl, znOf_of_p_eq_setZN rfl, toNat_addOrSubOne _ s.x⟩, fun hY => absurd hY hnotY,
      keepsFlags_of_p_eq_setZN rfl, readByte_congr rfl rfl⟩
  · exact ⟨_, hnext, fun hX => absurd hX hnotX, fun _ => ⟨rfl, znOf_of_p_eq_setZN rfl, toNat_addOrSubOne _ s.y⟩,
      keepsFlags_of_p_eq_setZN rfl, readByte_congr rfl rfl⟩

end Sys2Proof.Machine
end

section
/-! PROOFS. Logic, BIT, loads and stores: the rows, the operation of each mnemonic, and the answers (R160 to R169). -/

namespace Sys2Proof.Machine

/-! ### The rows -/

/-- Every AND, ORA or EOR is one of the twenty-four rows of R160 to R162. -/
theorem row_of_mnemonic_logic {i : Instr} (h : i.mnemonic ∈ [.and, .ora, .eor]) :
    (i.mnemonic, i.mode, i.opcode) ∈
      [(.and, .immediate, 0x29), (.and, .zeroPage, 0x25), (.and, .zeroPageX, 0x35),
        (.and, .absolute, 0x2D), (.and, .absoluteX, 0x3D), (.and, .absoluteY, 0x39),
        (.and, .indirectX, 0x21), (.and, .indirectY, 0x31), (.ora, .immediate, 0x09),
        (.ora, .zeroPage, 0x05), (.ora, .zeroPageX, 0x15), (.ora, .absolute, 0x0D),
        (.ora, .absoluteX, 0x1D), (.ora, .absoluteY, 0x19), (.ora, .indirectX, 0x01),
        (.ora, .indirectY, 0x11), (.eor, .immediate, 0x49), (.eor, .zeroPage, 0x45),
        (.eor, .zeroPageX, 0x55), (.eor, .absolute, 0x4D), (.eor, .absoluteX, 0x5D),
        (.eor, .absoluteY, 0x59), (.eor, .indirectX, 0x41), (.eor, .indirectY, 0x51)] := by
  cases i with
  | andImm | andZp | andZpX | andAbs | andAbsX | andAbsY | andIndX | andIndY
  | oraImm | oraZp | oraZpX | oraAbs | oraAbsX | oraAbsY | oraIndX | oraIndY
  | eorImm | eorZp | eorZpX | eorAbs | eorAbsX | eorAbsY | eorIndX | eorIndY => exact List.mem_of_elem_eq_true rfl
  | _ => exact absurd (List.elem_eq_true_of_mem h) Bool.false_ne_true

/-- BIT is one of the two rows of R163. -/
theorem row_of_mnemonic_bit {i : Instr} (h : i.mnemonic = .bit) :
    (i.mnemonic, i.mode, i.opcode) ∈ [(.bit, .zeroPage, 0x24), (.bit, .absolute, 0x2C)] := by
  cases i with
  | bitZp | bitAbs => exact List.mem_of_elem_eq_true rfl
  | _ => cases h

/-- Every load is one of the eighteen rows of R164 to R166. -/
theorem row_of_mnemonic_load {i : Instr} (h : i.mnemonic ∈ [.lda, .ldx, .ldy]) :
    (i.mnemonic, i.mode, i.opcode) ∈
      [(.lda, .immediate, 0xA9), (.lda, .zeroPage, 0xA5), (.lda, .zeroPageX, 0xB5),
        (.lda, .absolute, 0xAD), (.lda, .absoluteX, 0xBD), (.lda, .absoluteY, 0xB9),
        (.lda, .indirectX, 0xA1), (.lda, .indirectY, 0xB1), (.ldx, .immediate, 0xA2),
        (.ldx, .zeroPage, 0xA6), (.ldx, .zeroPageY, 0xB6), (.ldx, .absolute, 0xAE),
        (.ldx, .absoluteY, 0xBE), (.ldy, .immediate, 0xA0), (.ldy, .zeroPage, 0xA4),
        (.ldy, .zeroPageX, 0xB4), (.ldy, .absolute, 0xAC), (.ldy, .absoluteX, 0xBC)] := by
  cases i with
  | ldaImm | ldaZp | ldaZpX | ldaAbs | ldaAbsX | ldaAbsY | ldaIndX | ldaIndY
  | ldxImm | ldxZp | ldxZpY | ldxAbs | ldxAbsY
  | ldyImm | ldyZp | ldyZpX | ldyAbs | ldyAbsX => exact List.mem_of_elem_eq_true rfl
  | _ => exact absurd (List.elem_eq_true_of_mem h) Bool.false_ne_true

/-- Every store is one of the thirteen rows of R167 to R169. -/
theorem row_of_mnemonic_store {i : Instr} (h : i.mnemonic ∈ [.sta, .stx, .sty]) :
    (i.mnemonic, i.mode, i.opcode) ∈
      [(.sta, .zeroPage, 0x85), (.sta, .zeroPageX, 0x95), (.sta, .absolute, 0x8D),
        (.sta, .absoluteX, 0x9D), (.sta, .absoluteY, 0x99), (.sta, .indirectX, 0x81),
        (.sta, .indirectY, 0x91), (.stx, .zeroPage, 0x86), (.stx, .zeroPageY, 0x96),
        (.stx, .absolute, 0x8E), (.sty, .zeroPage, 0x84), (.sty, .zeroPageX, 0x94),
        (.sty, .absolute, 0x8C)] := by
  cases i with
  | staZp | staZpX | staAbs | staAbsX | staAbsY | staIndX | staIndY | stxZp | stxZpY | stxAbs
  | styZp | styZpX | styAbs => exact List.mem_of_elem_eq_true rfl
  | _ => exact absurd (List.elem_eq_true_of_mem h) Bool.false_ne_true

/-! ### Logic -/

/-- The result byte of AND, ORA and EOR, by mnemonic (R160 to R162). -/
def logicByte (mn : Mnemonic) (a m : Byte) : Byte :=
  if mn = .and then a &&& m else if mn = .ora then a ||| m else a ^^^ m

/-- Each bit of the result is that of the two bytes' bits (R160 to R162). -/
theorem getLsbD_logicByte (mn : Mnemonic) (a m : Byte) (k : Nat) :
    (logicByte mn a m).getLsbD k =
      if mn = .and then (a.getLsbD k && m.getLsbD k)
      else if mn = .ora then (a.getLsbD k || m.getLsbD k)
      else (a.getLsbD k != m.getLsbD k) := by
  rw [logicByte, apply_ite (BitVec.getLsbD · k), apply_ite (BitVec.getLsbD · k), BitVec.getLsbD_and,
    BitVec.getLsbD_or, BitVec.getLsbD_xor]

/-- In every mode AND, ORA and EOR read their operand and write A with the result of their mnemonic (R98, R160 to
R162). -/
theorem exec_of_mnemonic_logic {i : Instr} (h : i.mnemonic ∈ [.and, .ora, .eor]) (s : State) :
    exec i s = readOp i.operand (fun m => setA (logicByte i.mnemonic s.a m)) s := by
  cases i with
  | andImm | andZp | andZpX | andAbs | andAbsX | andAbsY | andIndX | andIndY
  | oraImm | oraZp | oraZpX | oraAbs | oraAbsX | oraAbsY | oraIndX | oraIndY
  | eorImm | eorZp | eorZpX | eorAbs | eorAbsX | eorAbsY | eorIndX | eorIndY => rfl
  | _ => exact absurd (List.elem_eq_true_of_mem h) Bool.false_ne_true

/-- Settles O29: each form is a row of R160 to R162, reads its operand, and writes A and SetZN of A. -/
theorem logicOnTheAccumulator : Obligations.LogicOnTheAccumulator := by
  intro i s hmn
  refine ⟨row_of_mnemonic_logic hmn, fun m hop => ?_⟩
  have hexec : exec i s = .next (advance i.operand (setA (logicByte i.mnemonic s.a m) s)) :=
    (exec_of_mnemonic_logic hmn s).trans (readOp_of_ok hop _)
  exact ⟨_, hexec, rfl, fun k _ => getLsbD_logicByte i.mnemonic s.a m k, znOf_of_p_eq_setZN rfl,
    keepsFlags_of_p_eq_setZN rfl, readByte_congr rfl rfl⟩

/-! ### BIT -/

/-- What BIT writes, and that it keeps every other flag (R163). -/
theorem getFlag_bitFlags (f : Flag) (a m p : Byte) :
    getFlag f (bitFlags a m p) =
      if f = .v then m.getLsbD 6 else if f = .n then m.getLsbD 7 else if f = .z then a &&& m == 0
      else getFlag f p := by
  rw [bitFlags, getFlag_putFlag, getFlag_putFlag, getFlag_putFlag]

/-- In both modes BIT reads its operand and tests it (R98, R163). -/
theorem exec_of_mnemonic_bit {i : Instr} (h : i.mnemonic = .bit) (s : State) :
    exec i s = readOp i.operand bitTest s := by
  cases i with
  | bitZp | bitAbs => rfl
  | _ => cases h

/-- BIT keeps every flag but Z, N and V (R163). -/
theorem keepsFlags_of_p_eq_bitFlags {a m : Byte} {s t : State} (h : t.p = bitFlags a m s.p) :
    KeepsFlags [.z, .n, .v] s t := by
  intro f hf
  simp only [List.mem_cons, List.not_mem_nil, or_false, not_or] at hf
  obtain ⟨hz, hn, hv⟩ := hf
  rw [h, getFlag_bitFlags, if_neg hv, if_neg hn, if_neg hz]

/-- Settles O30: each form is a row of R163, reads its operand, and writes P only. -/
theorem bitTestsWithoutWriting : Obligations.BitTestsWithoutWriting := by
  intro i s hmn
  refine ⟨row_of_mnemonic_bit hmn, fun m hop => ?_⟩
  have hexec : exec i s = .next (advance i.operand (bitTest m s)) :=
    (exec_of_mnemonic_bit hmn s).trans (readOp_of_ok hop _)
  have hz : getFlag .z (bitFlags s.a m s.p) = decide (s.a &&& m = 0) :=
    (getFlag_bitFlags .z s.a m s.p).trans (beq_eq_decide (s.a &&& m) 0)
  exact ⟨_, hexec, rfl, hz, getFlag_bitFlags .n s.a m s.p, getFlag_bitFlags .v s.a m s.p,
    keepsFlags_of_p_eq_bitFlags rfl, readByte_congr rfl rfl⟩

/-! ### Loads -/

/-- The register of the mnemonic LDA, LDX or LDY with a new value, and SetZN of it (R164 to R166). -/
def loadRegister (mn : Mnemonic) (m : Byte) (s : State) : State :=
  { s with
    a := if mn = .lda then m else s.a
    x := if mn = .ldx then m else s.x
    y := if mn = .ldy then m else s.y
    p := setZN m s.p }

/-- In every mode a load reads its operand into the register of its mnemonic (R98, R164 to R166). -/
theorem exec_of_mnemonic_load {i : Instr} (h : i.mnemonic ∈ [.lda, .ldx, .ldy]) (s : State) :
    exec i s = readOp i.operand (loadRegister i.mnemonic) s := by
  cases i with
  | ldaImm | ldaZp | ldaZpX | ldaAbs | ldaAbsX | ldaAbsY | ldaIndX | ldaIndY
  | ldxImm | ldxZp | ldxZpY | ldxAbs | ldxAbsY
  | ldyImm | ldyZp | ldyZpX | ldyAbs | ldyAbsX => rfl
  | _ => exact absurd (List.elem_eq_true_of_mem h) Bool.false_ne_true

/-- Settles O31: each form is a row of R164 to R166, reads its operand, and writes its register and SetZN of it. -/
theorem loadsWriteTheirRegister : Obligations.LoadsWriteTheirRegister := by
  intro i s hmn
  refine ⟨row_of_mnemonic_load hmn, fun m hop => ?_⟩
  have hexec : exec i s = .next (advance i.operand (loadRegister i.mnemonic m s)) :=
    (exec_of_mnemonic_load hmn s).trans (readOp_of_ok hop _)
  exact ⟨_, hexec, rfl, znOf_of_p_eq_setZN rfl, keepsFlags_of_p_eq_setZN rfl, readByte_congr rfl rfl⟩

/-! ### Stores -/

/-- In every mode a store writes the register of its mnemonic at EA and reads no operand (R98, R167 to R169). -/
theorem exec_of_mnemonic_store {i : Instr} (h : i.mnemonic ∈ [.sta, .stx, .sty]) (s : State) :
    exec i s =
      storeOp i.operand (if i.mnemonic = .sta then s.a else if i.mnemonic = .stx then s.x else s.y) s := by
  cases i with
  | staZp | staZpX | staAbs | staAbsX | staAbsY | staIndX | staIndY | stxZp | stxZpY | stxAbs
  | styZp | styZpX | styAbs => rfl
  | _ => exact absurd (List.elem_eq_true_of_mem h) Bool.false_ne_true

/-- The modes of a store compute their address without a fault: the pointers lie in page 0 (R97, R102, R103). -/
theorem addressIs_of_mnemonic_store {i : Instr} (h : i.mnemonic ∈ [.sta, .stx, .sty]) (s : State) :
    ∃ addr, AddressIs i s addr := by
  cases i with
  | staZp | staZpX | staAbs | staAbsX | staAbsY | staIndX | staIndY | stxZp | stxZpY | stxAbs
  | styZp | styZpX | styAbs => exact ⟨_, rfl⟩
  | _ => exact absurd (List.elem_eq_true_of_mem h) Bool.false_ne_true

/-- A store changes RAM at its address and gets the advance (R53, R93, R167). -/
theorem storeOp_answers {i : Instr} {v : Byte} {s : State} {addr : Word} (hexec : exec i s = storeOp i.operand v s)
    (hwf : s.ram.wf = true) (haddr : AddressIs i s addr) :
    ∃ t, exec i s = .next t ∧ t = { s with ram := t.ram, pc := pcAfter i s } ∧ StoresByte addr v s t := by
  have hstore := storesByte_writeByte hwf addr v
  rw [hexec, storeOp_of_ok haddr]
  refine ⟨_, rfl, ?_, fun other => (readByte_congr rfl rfl other).trans (hstore other)⟩
  rw [writeByte_frame]
  rfl

/-- Settles O32: each form is a row of R167 to R169 with an address in every state, and one byte store there. -/
theorem storesWriteTheirRegister : Obligations.StoresWriteTheirRegister := by
  intro i s hmn ⟨hwf, _⟩
  exact ⟨row_of_mnemonic_store hmn, addressIs_of_mnemonic_store hmn s, fun _ haddr =>
    storeOp_answers (exec_of_mnemonic_store hmn s) hwf haddr⟩

end Sys2Proof.Machine
end

section
/-! PROOFS. Transfers and stack: the transfers as one register write, the pushes and pulls of A and P as one stack
primitive each (R180 to R189). -/

namespace Sys2Proof.Machine

/-- A one-byte instruction answers without an advance (R93). -/
theorem exec_of_advance_none {i : Instr} {s t : State} (h : exec i s = .next (advance .none t)) :
    exec i s = .next t :=
  h.trans (congrArg Host.Outcome.next (advance_none t))

/-! ### Transfers -/

/-- A register write with SetZN of the value: Z and N of it, the other flags and the memory as before (R35). -/
theorem setZN_write_effects {r : Byte} {s t : State} (hp : t.p = setZN r s.p) (hram : t.ram = s.ram)
    (hrom : t.rom = s.rom) : ZnOf r t ∧ KeepsFlags [.z, .n] s t ∧ SameMemory s t :=
  ⟨znOf_of_p_eq_setZN hp, keepsFlags_of_p_eq_setZN hp, readByte_congr hram hrom⟩

/-- The transfers have no operand bytes (R180 to R185). -/
theorem length_of_mem_transfers : ∀ i ∈ [Instr.tax, .tay, .txa, .tya, .tsx, .txs], i.length = 1 := by
  decide

/-- Settles O34: five transfers are one register write with SetZN, and TXS is a write of SP alone. -/
theorem transfersCopyTheirSource : Obligations.TransfersCopyTheirSource := by
  intro s
  refine ⟨rfl, length_of_mem_transfers, ?tax, ?tay, ?txa, ?tya, ?tsx, ?txs⟩
  case tax | tay | txa | tya | tsx =>
    exact ⟨_, exec_of_advance_none rfl, rfl, setZN_write_effects rfl rfl rfl⟩
  case txs =>
    exact ⟨_, exec_of_advance_none rfl, rfl, fun _ _ => rfl, readByte_congr rfl rfl⟩

/-! ### Pushes -/

/-- PHA and PHP are the one-byte rows of R186 and R187. -/
theorem row_of_mnemonic_push {i : Instr} (h : i.mnemonic ∈ [.pha, .php]) :
    (i.mnemonic, i.opcode) ∈ [(.pha, 0x48), (.php, 0x08)] ∧ i.length = 1 := by
  cases i with
  | pha | php => exact ⟨List.mem_of_elem_eq_true rfl, rfl⟩
  | _ => exact absurd (List.elem_eq_true_of_mem h) Bool.false_ne_true

/-- PHA is a push of A, PHP a push of P with B and U set (R186, R187). -/
theorem exec_of_mnemonic_push {i : Instr} (h : i.mnemonic ∈ [.pha, .php]) (s : State) :
    ∃ v, exec i s = .next (push v s) ∧ (i.mnemonic = .pha → v = s.a) ∧
      (i.mnemonic = .php → v = pushedStatus s.p) := by
  cases i with
  | pha => exact ⟨s.a, exec_of_advance_none rfl, fun _ => rfl, nofun⟩
  | php => exact ⟨pushedStatus s.p, exec_of_advance_none rfl, nofun, fun _ => rfl⟩
  | _ => exact absurd (List.elem_eq_true_of_mem h) Bool.false_ne_true

/-- The pushed copy of P flag by flag (R187). -/
theorem getFlag_pushedStatus_eq_ite (f : Flag) (p : Byte) :
    getFlag f (pushedStatus p) = if f = .b ∨ f = .u then true else getFlag f p := by
  rw [getFlag_pushedStatus]
  cases f <;> rfl

/-- Settles O35: each is a row of R186 or R187 and one push, which writes SP and one byte of page 1. -/
theorem pushesOfAAndP : Obligations.PushesOfAAndP := by
  intro i s hmn ⟨hwf, _⟩
  obtain ⟨hrow, hlen⟩ := row_of_mnemonic_push hmn
  obtain ⟨v, hnext, hpha, hphp⟩ := exec_of_mnemonic_push hmn s
  refine ⟨hrow, hlen, push v s, v, hnext, push_frame v s, toNat_sub_one_byte s.sp, hpha, fun hmnPhp f => ?_, ?_⟩
  · rw [hphp hmnPhp, getFlag_pushedStatus_eq_ite]
  · rw [← stackAddr_eq_ofNat]
    exact storesByte_push hwf v

/-! ### Pulls -/

/-- A pull reads the physical byte of page 1 above SP (R41, R43). -/
theorem pullByte_eq_read (s : State) : pullByte s = s.ram.read (0x0100 + (s.sp.toNat + 1) % 256) := by
  rw [pullByte, ramByte, ramIndex_stackAddr, toNat_add_one_byte]

/-- A restored P flag by flag (R189, R204). -/
theorem getFlag_restoredStatus_eq_ite (f : Flag) (v : Byte) :
    getFlag f (restoredStatus v) = if f = .b then false else if f = .u then true else getFlag f v := by
  rw [getFlag_restoredStatus]
  cases f <;> rfl

/-- Settles O36: both pull the byte above SP, PLA into A with SetZN, PLP into P with B clear and U set. -/
theorem pullsOfAAndP : Obligations.PullsOfAAndP := by
  intro s
  rw [← pullByte_eq_read]
  refine ⟨rfl, rfl, rfl, rfl, ?pla, ?plp⟩
  case pla =>
    exact ⟨_, exec_of_advance_none rfl, rfl, toNat_add_one_byte s.sp, setZN_write_effects rfl rfl rfl⟩
  case plp =>
    exact ⟨_, exec_of_advance_none rfl, rfl, toNat_add_one_byte s.sp, readByte_congr rfl rfl,
      fun f => getFlag_restoredStatus_eq_ite f (pullByte s)⟩

end Sys2Proof.Machine
end

section
/-! PROOFS. Control transfers that are not branches: the jumps, the two returns and BRK (R200, R201, R203, R204,
R215). -/

namespace Sys2Proof.Machine

/-! ### Jumps -/

/-- JMP goes to the effective address of its operand, with no advance (R94, R200). -/
theorem execJmpAbs_eq (target : Word) (s : State) : execJmpAbs target s = .next { s with pc := target } :=
  withEA_of_ok rfl _

/-- JMP indirect goes to the word its pointer's two reads give (R104, R201). -/
theorem execJmpInd_of_ok {ptr : Word} {lo hi : Byte} {s : State} (hlo : readByte ptr s = .ok lo)
    (hhi : readByte (pointerHigh ptr) s = .ok hi) :
    execJmpInd ptr s = .next { s with pc := mkWord hi lo } :=
  withEA_of_ok (o := .indirect ptr) (congrArg some (indirectTarget_of_ok hlo hhi)) _

/-- Settles O37: both jumps write PC with an effective address, the pointer's high byte read in its own page. -/
theorem jumpsSetPc : Obligations.JumpsSetPc := by
  intro s target ptr
  refine ⟨rfl, rfl, rfl, rfl, execJmpAbs_eq target s, ?_⟩
  intro lo hi hlo hhi
  rw [← pointerHigh_eq_ofNat] at hhi
  exact execJmpInd_of_ok hlo hhi

/-! ### The returns -/

/-- The word a pull of a word reads: the two bytes of page 1 above SP, low byte first (R41, R42). -/
theorem toNat_pullWordValue (s : State) :
    (pullWordValue s).toNat =
      (s.ram.read (0x0100 + (s.sp.toNat + 2) % 256)).toNat * 256 +
        (s.ram.read (0x0100 + (s.sp.toNat + 1) % 256)).toNat := by
  rw [pullWordValue, toNat_mkWord, pullByte_eq_read, pullByte_eq_read, pullSp_ram, pullSp_sp, toNat_add_one_byte,
    Nat.mod_add_mod]

/-- A pull of a word moves SP by 2 (R42). -/
theorem toNat_pullWordSp_sp (s : State) : (pullWordSp s).sp.toNat = (s.sp.toNat + 2) % 256 := by
  rw [pullWordSp_sp, toNat_add_one_byte, toNat_add_one_byte, Nat.mod_add_mod]

/-- The k-th byte above SP after the pull of P is the byte k + 1 above SP before it (R41, R204). -/
theorem toNat_pullStatus_sp_add (s : State) (k : Nat) :
    ((pullStatus s).sp.toNat + k) % 256 = (s.sp.toNat + (k + 1)) % 256 := by
  rw [pullStatus_sp, toNat_add_one_byte, Nat.mod_add_mod, Nat.add_right_comm, Nat.add_assoc]

/-- Settles O41: RTS is one pull of a word into PC, plus 1. -/
theorem rtsReturnsPastTheJsr : Obligations.RtsReturnsPastTheJsr := by
  intro s
  refine ⟨rfl, rfl, _, rfl, rfl, ?pc, toNat_pullWordSp_sp s, readByte_congr rfl rfl⟩
  case pc =>
    rw [← toNat_pullWordValue]
    exact BitVec.toNat_add (pullWordValue s) 1

/-- Settles O42: RTI is the pull of P that PLP does, then the pull of a word that RTS does, from SP one higher. -/
theorem rtiRestoresStatusAndPc : Obligations.RtiRestoresStatusAndPc := by
  intro s
  refine ⟨rfl, rfl, _, rfl, rfl, ?p, ?pc, ?sp, readByte_congr rfl rfl⟩
  case p =>
    rw [← pullByte_eq_read]
    exact fun f => getFlag_restoredStatus_eq_ite f (pullByte s)
  case pc =>
    have h := toNat_pullWordValue (pullStatus s)
    rwa [toNat_pullStatus_sp_add, toNat_pullStatus_sp_add] at h
  case sp =>
    exact (toNat_pullWordSp_sp (pullStatus s)).trans (toNat_pullStatus_sp_add s 2)

/-! ### BRK -/

/-- Settles O45: BRK is one flag write and the halt, with no advance. -/
theorem brkSetsBAndHalts : Obligations.BrkSetsBAndHalts := by
  intro s
  refine ⟨rfl, rfl, _, exec_of_advance_none rfl, rfl, getFlag_putFlag_self .b true s.p, ?keeps, readByte_congr rfl rfl⟩
  case keeps =>
    exact fun f hf => getFlag_putFlag_other (List.ne_of_not_mem_cons hf) true s.p

end Sys2Proof.Machine
end

section
/-! PROOFS. Flag instructions and NOP: the seven as one flag write each, NOP as the identity (R230 to R237). -/

namespace Sys2Proof.Machine

/-- A write of one flag keeps the other seven (R26). -/
theorem keepsFlags_of_p_eq_putFlag {f : Flag} {v : Bool} {s t : State} (h : t.p = putFlag f v s.p) :
    KeepsFlags [f] s t := by
  intro g hg
  rw [h, getFlag_putFlag_other (List.ne_of_not_mem_cons hg)]

/-- What an instruction answers that is one flag write: the flag at its value, everything else as it was. -/
theorem flagWrite_answers {i : Instr} {f : Flag} {v : Bool} {s : State}
    (hexec : exec i s = .next (advance .none (setFlag f v s))) :
    ∃ t, exec i s = .next t ∧ t = { s with p := t.p } ∧ getFlag f t.p = v ∧ KeepsFlags [f] s t ∧ SameMemory s t :=
  ⟨setFlag f v s, exec_of_advance_none hexec, rfl, getFlag_putFlag_self f v s.p, keepsFlags_of_p_eq_putFlag rfl,
    readByte_congr rfl rfl⟩

/-- Settles O46: each of the seven is one write of its flag and NOP writes nothing; without operand bytes there is no
advance. -/
theorem flagInstructionsAndNop : Obligations.FlagInstructionsAndNop := by
  intro s
  refine ⟨fun i op f v hmem => ?flags, rfl, rfl, exec_of_advance_none rfl⟩
  case flags =>
    simp only [List.mem_cons, List.not_mem_nil, or_false, Prod.mk.injEq] at hmem
    rcases hmem with ⟨rfl, rfl, rfl, rfl⟩ | ⟨rfl, rfl, rfl, rfl⟩ | ⟨rfl, rfl, rfl, rfl⟩ | ⟨rfl, rfl, rfl, rfl⟩ |
      ⟨rfl, rfl, rfl, rfl⟩ | ⟨rfl, rfl, rfl, rfl⟩ | ⟨rfl, rfl, rfl, rfl⟩
    all_goals exact ⟨rfl, rfl, flagWrite_answers rfl⟩

end Sys2Proof.Machine
end

section
/-! PROOFS. Reset: the word read of the vector, and the state Reset() leaves when both of its reads answer (R60, R270). -/

namespace Sys2Proof.Machine

/-- A word access whose two byte reads both answer, low byte first; the converse of `readWord_ok` (R60). -/
theorem readWord_of_ok {addr : Word} {lo hi : Byte} {s : State} (hlo : readByte addr s = .ok lo)
    (hhi : readByte (addr + 1) s = .ok hi) : readWord addr s = .ok (mkWord hi lo) := by
  rw [readWord, hlo, Access.bind_ok, hhi, Access.bind_ok]

/-- Reset() when the vector reads as `v`: six registers written, and every other field as it was (R270). -/
theorem resetEvent_of_ok {v : Word} {s : State} (hv : readWord Config.resetVector s = .ok v) :
    resetEvent s =
      { s with
        pc := v, sp := Config.spReset, p := Config.pReset, a := 0x00, x := 0x00, halted := false } := by
  rw [resetEvent, hv]

/-- Settles O55: the two bytes read at 0xFFFC and 0xFFFD are the word of the vector, which PC takes. -/
theorem resetFollowsItsRule : Obligations.ResetFollowsItsRule := by
  intro s lo hi hlo hhi
  have hvector : readWord Config.resetVector s = .ok (mkWord hi lo) := readWord_of_ok hlo hhi
  exact resetEvent_of_ok hvector

end Sys2Proof.Machine
end

section
/-! PROOFS. The encoding: which row an instruction's opcode selects, what that row builds and the encoder writes, and
the two round trips between them (R90, R92, R95, R108, R110, R112). -/

namespace Sys2Proof

/-! ### The rows and the encoder -/

/-- A template builds an instruction for some value of the operand it reads. -/
def Template.Builds (i : Instr) : Template → Prop
  | .implied j => j = i
  | .byte build => ∃ b, build b = i
  | .word build => ∃ w, build w = i

/-- The encoder writes what a row builds as the row's opcode and the operand bytes its template reads, low first. -/
def Row.EncodesItsBytes (r : Row) : Prop :=
  match r.template with
  | .implied i => encode i = [r.opcode]
  | .byte build => ∀ b, encode (build b) = [r.opcode, b]
  | .word build => ∀ w, encode (build w) = [r.opcode, loByte w, hiByte w]

/-- An instruction's opcode selects a row that builds it (R92, R108). -/
theorem descriptor_opcode_builds (i : Instr) : ∃ r, descriptor i.opcode = some r ∧ r.template.Builds i := by
  cases i with
  | aslA | lsrA | rolA | rorA | inx | iny | dex | dey | tax | tay | txa | tya | tsx | txs | pha | php | pla | plp | rts
  | rti | brk | clc | sec | cli | sei | cld | sed | clv | nop =>
    refine ⟨_, rfl, ?_⟩
    exact rfl
  | _ =>
    simp only [Instr.opcode]
    refine ⟨_, rfl, ?_⟩
    exact ⟨_, rfl⟩

/-- Every row of the opcode map encodes what it builds with its own bytes (R90, R108, R112). -/
theorem encodesItsBytes_of_mem_opcodeMap {n : Nat} {r : Row} (hr : r ∈ opcodeMap n) : r.EncodesItsBytes := by
  unfold opcodeMap at hr
  split at hr
  case h_17 => cases hr
  all_goals
    fin_cases hr
  all_goals
    simp only [Row.EncodesItsBytes]
    intros
    rfl

/-- What a found row builds is encoded by the opcode asked for and the operand bytes (R90, R92). -/
theorem encodesItsBytes_of_descriptor {op : Byte} {r : Row} (h : descriptor op = some r) :
    r.opcode = op ∧ r.EncodesItsBytes :=
  ⟨descriptor_some h, encodesItsBytes_of_mem_opcodeMap (List.mem_of_find?_eq_some h)⟩

/-- The row an instruction's opcode selects, with the operand bytes the encoder writes for it, by template. -/
theorem encode_cases (i : Instr) :
    ∃ r, descriptor i.opcode = some r ∧
      (r.template = .implied i ∧ encode i = [i.opcode] ∨
        (∃ build b, r.template = .byte build ∧ build b = i ∧ encode i = [i.opcode, b]) ∨
        ∃ build w, r.template = .word build ∧ build w = i ∧ encode i = [i.opcode, loByte w, hiByte w]) := by
  obtain ⟨r, hr, hbuilds⟩ := descriptor_opcode_builds i
  obtain ⟨hop, hbytes⟩ := encodesItsBytes_of_descriptor hr
  refine ⟨r, hr, ?_⟩
  rw [Row.EncodesItsBytes, hop] at hbytes
  cases ht : r.template with
  | implied j =>
    rw [ht] at hbuilds hbytes
    obtain rfl : j = i := hbuilds
    exact .inl ⟨rfl, hbytes⟩
  | byte build =>
    rw [ht] at hbuilds hbytes
    obtain ⟨b, hb⟩ := hbuilds
    exact .inr (.inl ⟨build, b, rfl, hb, hb ▸ hbytes b⟩)
  | word build =>
    rw [ht] at hbuilds hbytes
    obtain ⟨w, hw⟩ := hbuilds
    exact .inr (.inr ⟨build, w, rfl, hw, hw ▸ hbytes w⟩)

/-! ### The decoder -/

theorem decode_cons {op : Byte} {r : Row} (h : descriptor op = some r) (rest : List Byte) :
    decode (op :: rest) = r.template.read op rest := by
  rw [decode, h]

/-- Settles O1: the opcode selects the row that builds the instruction, and its template reads back the operand bytes
the encoder wrote. -/
theorem decodeInvertsEncode : Obligations.DecodeInvertsEncode := by
  intro i rest
  obtain ⟨r, hr, ⟨ht, henc⟩ | ⟨build, b, ht, hb, henc⟩ | ⟨build, w, ht, hw, henc⟩⟩ := encode_cases i
  · rw [henc, List.cons_append, decode_cons hr, ht]
    rfl
  · rw [henc, List.cons_append, decode_cons hr, ht, ← hb]
    rfl
  · rw [henc, List.cons_append, decode_cons hr, ht, ← hw]
    simp [Template.read]

/-- Whatever a row's template reads is encoded by the bytes it read (R90, R95). -/
theorem eq_encode_of_read {r : Row} {op : Byte} {bytes rest : List Byte} {i : Instr} (hr : descriptor op = some r)
    (h : r.template.read op bytes = .ok (i, rest)) : op :: bytes = encode i ++ rest := by
  obtain ⟨hop, hbytes⟩ := encodesItsBytes_of_descriptor hr
  rw [Row.EncodesItsBytes, hop] at hbytes
  generalize r.template = template at h hbytes
  match template, bytes with
  | .implied j, bytes =>
    cases h
    rw [hbytes]
    rfl
  | .byte build, b :: tail =>
    cases h
    rw [hbytes]
    rfl
  | .word build, lo :: hi :: tail =>
    cases h
    rw [hbytes, Machine.loByte_mkWord, Machine.hiByte_mkWord]
    rfl
  | .byte _, [] | .word _, [] | .word _, [_] => cases h

/-- Settles O2: the first byte selects a row, and whatever that row's template reads it encodes with the bytes read. -/
theorem encodeInvertsDecode : Obligations.EncodeInvertsDecode := by
  intro bytes rest i h
  cases bytes with
  | nil => cases h
  | cons op tail =>
    rw [decode] at h
    cases hr : descriptor op with
    | none =>
      rw [hr] at h
      cases h
    | some r =>
      rw [hr] at h
      exact eq_encode_of_read hr h

/-- Settles O3: each word is the encoding of its instruction. -/
theorem wordsOfTheSpecDecode : Obligations.WordsOfTheSpecDecode :=
  ⟨decodeInvertsEncode (.adcImm 0x01) [], decodeInvertsEncode (.sbcAbsY 0x02FF) [], decodeInvertsEncode .aslA [],
    decodeInvertsEncode (.rorAbsX 0x0200) [], decodeInvertsEncode (.cmpIndY 0x20) [], decodeInvertsEncode .inx [],
    decodeInvertsEncode (.ldxZpY 0x10) [], decodeInvertsEncode (.staAbsX 0x0200) [], decodeInvertsEncode .tax [],
    decodeInvertsEncode .plp [], decodeInvertsEncode (.jmpInd 0x02FF) [], decodeInvertsEncode (.bne 0xFB) [],
    decodeInvertsEncode .brk [], decodeInvertsEncode .sed []⟩

end Sys2Proof
end

section
/-! PROOFS. The fetch: what it comes to for each answer of its reads, and the steps that follow (R67, R91, R92, R95,
R97, R98, R110, R240 to R242). -/

namespace Sys2Proof.Machine

/-! ### Reads in sequence -/

theorem Access.bind_eq_ok {α β : Type} {r : Access α} {f : α → Access β} {v : β} (h : r.bind f = .ok v) :
    ∃ u, r = .ok u ∧ f u = .ok v := by
  cases r with
  | ok u => exact ⟨u, rfl, h⟩
  | fault k addr => cases h

theorem Access.bind_eq_fault {α β : Type} {r : Access α} {f : α → Access β} {k : Fault} {addr : Word}
    (h : r.bind f = .fault k addr) : r = .fault k addr ∨ ∃ u, r = .ok u ∧ f u = .fault k addr := by
  cases r with
  | ok u => exact .inr ⟨u, rfl, h⟩
  | fault k' addr' =>
    cases h
    exact .inl rfl

/-- A word read faults as the first of its two byte reads that does (R60). -/
theorem readWord_fault {addr a : Word} {k : Fault} {s : State} (h : readWord addr s = .fault k a) :
    readByte addr s = .fault k a ∨ readByte (addr + 1) s = .fault k a := by
  obtain hlo | ⟨lo, _, h⟩ := Access.bind_eq_fault h
  · exact .inl hlo
  · obtain hhi | ⟨hi, _, h⟩ := Access.bind_eq_fault h
    · exact .inr hhi
    · cases h

/-! ### What a fetch comes to -/

theorem fetch_of_opcode_fault {s : State} {k : Fault} {addr : Word} (h : readByte s.pc s = .fault k addr) :
    fetch s = .stopped (raiseAt s.pc k addr s) := by
  simp [fetch, h]

theorem fetch_of_undefined {s : State} {op : Byte} (h : readByte s.pc s = .ok op) (hd : descriptor op = none) :
    fetch s = .stopped (raise .illegalOpcode s.pc (executePhase op s)) := by
  simp [fetch, h, hd]

theorem fetch_of_operand_fault {s : State} {op : Byte} {row : Row} {k : Fault} {addr : Word}
    (h : readByte s.pc s = .ok op) (hd : descriptor op = some row)
    (hf : fetchOperand row.template (executePhase op s) = .fault k addr) :
    fetch s = .stopped (operandFault row.mnemonic k addr (executePhase op s)) := by
  simp [fetch, h, hd, hf]

theorem fetch_of_operand_ok {s : State} {op : Byte} {row : Row} {i : Instr}
    (h : readByte s.pc s = .ok op) (hd : descriptor op = some row)
    (hf : fetchOperand row.template (executePhase op s) = .ok i) :
    fetch s = .instr i (executePhase op s) := by
  simp [fetch, h, hd, hf]

theorem step_of_fetch_stopped {s t : State} (hrun : Running s) (h : fetch s = .stopped t) : step s = .next t := by
  rw [step_of_running hrun, h]

theorem step_of_fetch_instr {s t : State} {i : Instr} (hrun : Running s) (h : fetch s = .instr i t) :
    step s = exec i t := by
  rw [step_of_running hrun, h]

/-- In the execute phase a fault names the opcode's own address (R25, R240). -/
theorem raise_executePhase (k : Fault) (addr : Word) (op : Byte) (s : State) :
    raise k addr (executePhase op s) =
      { s with pc := s.pc + 1, ir := op, fault := some { kind := k, pc := s.pc, ir := op, addr := addr } } := by
  simp [raise, raiseAt, executePhase]

/-! ### The opcode -/

/-- Settles O6: an opcode read that faults does so for PC, and the fetch stops there. -/
theorem opcodeFetchFaults : Obligations.OpcodeFetchFaults := by
  intro s k addr hrun h
  obtain ⟨rfl, rfl⟩ := readByte_fault h
  exact step_of_fetch_stopped hrun (fetch_of_opcode_fault h)

/-- R110's list is what the opcode map leaves out of the 256 bytes. -/
theorem map_undefinedOpcodes :
    undefinedOpcodes.map BitVec.toNat = (List.range 256).filter fun n => (descriptor (BitVec.ofNat 8 n)).isNone := by
  decide +kernel

theorem descriptor_eq_none_iff (op : Byte) : descriptor op = none ↔ op ∈ undefinedOpcodes := by
  have hop : op.toNat < 256 := op.isLt
  rw [← List.mem_map_of_injective (fun _ _ => BitVec.eq_of_toNat_eq), map_undefinedOpcodes]
  simp [hop]

/-- Settles O4: the listed bytes are those without a row, and the fetch stops at one. -/
theorem undefinedOpcodesFault : Obligations.UndefinedOpcodesFault := by
  refine ⟨rfl, descriptor_eq_none_iff, fun s op hrun h hmem => ?_⟩
  rw [step_of_fetch_stopped hrun (fetch_of_undefined h ((descriptor_eq_none_iff op).mpr hmem)), raise_executePhase]

/-! ### The operand -/

/-- An operand read can only run past the PRG image (R242). -/
theorem fetchOperand_fault {template : Template} {s : State} {k : Fault} {addr : Word}
    (h : fetchOperand template s = .fault k addr) : k = .prgOutOfRange := by
  cases template with
  | implied i => cases h
  | byte build =>
    obtain hb | ⟨b, _, hb⟩ := Access.bind_eq_fault h
    · exact (readByte_fault hb).1
    · cases hb
  | word build =>
    obtain hw | ⟨w, _, hw⟩ := Access.bind_eq_fault h
    · obtain hlo | hhi := readWord_fault hw
      · exact (readByte_fault hlo).1
      · exact (readByte_fault hhi).1
    · cases hw

theorem mem_descriptors {op : Byte} {row : Row} (h : descriptor op = some row) : row ∈ descriptors := by
  have hnibble : op.toNat / 16 ∈ List.range 16 := List.mem_range.mpr (by have := op.isLt; omega)
  exact List.mem_flatMap.mpr ⟨op.toNat / 16, hnibble, List.mem_of_find?_eq_some h⟩

/-- JSR has one row, that of the opcode 0x20 (R108). -/
theorem mnemonic_eq_jsr_iff {op : Byte} {row : Row} (h : descriptor op = some row) :
    row.mnemonic = .jsr ↔ op = 0x20 := by
  have hrows : ∀ r ∈ descriptors, r.mnemonic = .jsr ↔ r.opcode = 0x20 := by decide +kernel
  rw [hrows row (mem_descriptors h), descriptor_some h]

/-- A push leaves PC and IR out of account. -/
theorem push_executePhase (v op : Byte) (s : State) : push v (executePhase op s) = executePhase op (push v s) := by
  simp [push, writeByte, executePhase, inRam_stackAddr]

/-- JSR's pushes, seen from the state before its fetch (R202). -/
theorem jsrPush_executePhase (op : Byte) (s : State) :
    jsrPush (executePhase op s) = executePhase op (pushWord (s.pc + 2) s) := by
  have hlast : (executePhase op s).pc + 1 = s.pc + 2 := BitVec.add_assoc s.pc 1 1
  rw [jsrPush, hlast, pushWord, push_executePhase, push_executePhase, pushWord]

/-- Settles O7: the fetch stops with the fault of the operand read, which JSR takes after its pushes. -/
theorem operandFetchFaults : Obligations.OperandFetchFaults := by
  intro s op row k addr hrun h hd hf
  obtain rfl := fetchOperand_fault hf
  have hstep := step_of_fetch_stopped hrun (fetch_of_operand_fault h hd hf)
  refine ⟨fun hop => ?_, fun hop hno => ?_⟩
  · rw [hstep, operandFault, if_neg (mt (mnemonic_eq_jsr_iff hd).mp hop), raise_executePhase]
  · have hno' : jsrOverlap (executePhase op s) = none := hno
    rw [hstep, operandFault, if_pos ((mnemonic_eq_jsr_iff hd).mpr hop), hno']
    simp [jsrPush_executePhase, raise_executePhase]

/-! ### The instruction -/

/-- Settles O5: the opcode byte selects the row that builds the instruction, and the template reads its operand bytes at
PC + 1 and PC + 2. -/
theorem stepRunsDecodedInstruction : Obligations.StepRunsDecodedInstruction := by
  intro s i hrun hbytes
  obtain ⟨r, hr, htemplate⟩ := encode_cases i
  have hop : readByte s.pc s = .ok i.opcode := by
    simpa [encode] using hbytes 0 (by simp [encode])
  have hread (addr : Word) : readByte addr (executePhase i.opcode s) = readByte addr s := readByte_congr rfl rfl addr
  suffices hfetch : fetchOperand r.template (executePhase i.opcode s) = .ok i from
    step_of_fetch_instr hrun (fetch_of_operand_ok hop hr hfetch)
  obtain ⟨ht, henc⟩ | ⟨build, b, ht, hb, henc⟩ | ⟨build, w, ht, hw, henc⟩ := htemplate
  · rw [ht, fetchOperand]
  · have h1 : readByte (s.pc + 1) s = .ok b := by simpa [henc] using hbytes 1 (by simp [henc])
    rw [ht, fetchOperand, executePhase_pc, hread, h1, Access.bind_ok, hb]
  · have h1 : readByte (s.pc + 1) s = .ok (loByte w) := by simpa [henc] using hbytes 1 (by simp [henc])
    have h2 : readByte (s.pc + 1 + 1) s = .ok (hiByte w) := by
      rw [BitVec.add_assoc]
      simpa [henc] using hbytes 2 (by simp [henc])
    rw [ht, fetchOperand, executePhase_pc, readWord, hread, hread, h1, h2]
    simp [hw]

/-- An instruction's encoding is as long as its mode says (R90, R95). -/
theorem length_encode (i : Instr) : (encode i).length = i.length := by
  have hbytes : ∀ o : Operand, o.bytes.length + 1 = o.mode.length := fun o => by cases o <;> rfl
  exact hbytes i.operand

/-- Settles O8: the store left the opcode byte at PC, and it is the whole encoding. -/
theorem fetchSeesStores : Obligations.FetchSeesStores := by
  intro s i ⟨hhalt, hfault⟩ ⟨hwf, _⟩ hin hlen
  have hrun : Running (writeByte s.pc i.opcode s) :=
    ⟨(writeByte_halted ..).trans hhalt, (writeByte_fault ..).trans hfault⟩
  have hread : readByte s.pc (writeByte s.pc i.opcode s) = .ok i.opcode := by
    rw [storesByte_writeByte hwf, if_pos ⟨hin, hin, rfl⟩]
  rw [stepRunsDecodedInstruction _ i hrun, writeByte_pc]
  intro k hk
  obtain rfl : k = 0 := by rwa [length_encode, hlen, Nat.lt_one_iff] at hk
  simpa [encode] using hread

/-! ### Operands and the resolver -/

/-- The bytes a fetch read are its instruction's encoding: the opcode at PC, the operand after it (R91, R95, R112). -/
theorem bytes_of_fetch {s t : State} {i : Instr} (h : fetch s = .instr i t) :
    readByte s.pc s = .ok i.opcode ∧ t = executePhase i.opcode s ∧
      (i.operand.bytes = [] ∨ (∃ b, i.operand.bytes = [b] ∧ readByte t.pc t = .ok b) ∨
        ∃ w, i.operand.bytes = [loByte w, hiByte w] ∧ readWord t.pc t = .ok w) := by
  obtain ⟨op, row, hread, hd, ht, hf⟩ := fetch_instr h
  obtain ⟨hop, henc⟩ := encodesItsBytes_of_descriptor hd
  rw [Row.EncodesItsBytes, hop] at henc
  cases htemplate : row.template with
  | implied j =>
    rw [htemplate] at hf henc
    cases hf
    obtain ⟨hi, hbytes⟩ := List.cons.inj henc
    exact ⟨hi ▸ hread, hi ▸ ht, .inl hbytes⟩
  | byte build =>
    rw [htemplate] at hf henc
    obtain ⟨b, hb, hbuild⟩ := Access.bind_eq_ok hf
    cases hbuild
    obtain ⟨hi, hbytes⟩ := List.cons.inj (henc b)
    exact ⟨hi ▸ hread, hi ▸ ht, .inr (.inl ⟨b, hbytes, hb⟩)⟩
  | word build =>
    rw [htemplate] at hf henc
    obtain ⟨w, hw, hbuild⟩ := Access.bind_eq_ok hf
    cases hbuild
    obtain ⟨hi, hbytes⟩ := List.cons.inj (henc w)
    exact ⟨hi ▸ hread, hi ▸ ht, .inr (.inr ⟨w, hbytes, hw⟩)⟩

/-- An operand whose bytes stand at PC has the address R97's resolver gives, and the operand byte that R98's does. -/
theorem ea_eq_eaFromMemory {o : Operand} {t : State}
    (h : o.bytes = [] ∨ (∃ b, o.bytes = [b] ∧ readByte t.pc t = .ok b) ∨
      ∃ w, o.bytes = [loByte w, hiByte w] ∧ readWord t.pc t = .ok w) :
    ea o t = eaFromMemory o.mode t ∧
      operandByte o t = (eaFromMemory o.mode t).map fun r => r.bind fun addr => readByte addr t := by
  cases o with
  | none => exact ⟨rfl, rfl⟩
  | immediate imm | zeroPage zp | zeroPageX zp | zeroPageY zp | indirectX zp | indirectY zp | relative off =>
    obtain hb | ⟨b, hb, hread⟩ | ⟨w, hb, _⟩ := h
    · cases hb
    · cases hb
      simp [ea, eaFromMemory, operandByte, Operand.mode, hread, zpIndexed, absIndexed]
    · cases hb
  | absolute addr | absoluteX addr | absoluteY addr | indirect addr =>
    obtain hb | ⟨b, hb, _⟩ | ⟨w, hb, hread⟩ := h
    · cases hb
    · cases hb
    · obtain ⟨hlo, hhi⟩ : loByte addr = loByte w ∧ hiByte addr = hiByte w := by simpa [Operand.bytes] using hb
      obtain rfl : addr = w := by rw [← mkWord_hiByte_loByte addr, hlo, hhi, mkWord_hiByte_loByte]
      simp [ea, eaFromMemory, operandByte, Operand.mode, hread, absIndexed]

/-- Settles O10: the fetch read the operand's bytes at PC, which are those R97's resolver reads. -/
theorem resolverReadsOperandsFromMemory : Obligations.ResolverReadsOperandsFromMemory := by
  intro s t i h
  obtain ⟨_, _, hbytes⟩ := bytes_of_fetch h
  exact ea_eq_eaFromMemory hbytes

end Sys2Proof.Machine
end

section
/-! PROOFS. Memory: the RAM mirrors, the PRG window, and a word access as its two byte accesses (R52, R54, R55, R60,
R61, R242). -/

namespace Sys2Proof.Machine

/-! ### RAM -/

/-- The physical index is the address modulo the RAM's size (R55). -/
theorem ramIndex_eq_mod (addr : Word) : ramIndex addr = addr.toNat % 0x0800 := by
  rw [ramIndex, BitVec.toNat_and]
  exact Nat.and_two_pow_sub_one_eq_mod addr.toNat 11

/-- Settles O13: the four addresses lie in the RAM window and are equal modulo 0x0800. -/
theorem ramIsMirroredFourTimes : Obligations.RamIsMirroredFourTimes := by
  intro s k n hk hn
  have hnat : (BitVec.ofNat 16 (k + n * 0x0800)).toNat = k + n * 0x0800 := by
    rw [BitVec.toNat_ofNat]
    omega
  have hin : inRam (BitVec.ofNat 16 (k + n * 0x0800)) = true := by
    rw [inRam, hnat, Config.ramLast, decide_eq_true_eq]
    omega
  rw [readByte_of_inRam hin, ramByte, ramIndex_eq_mod, hnat, Nat.add_mul_mod_self_right, Nat.mod_eq_of_lt hk]

/-! ### The PRG window -/

/-- An address of the PRG window lies outside RAM (R51). -/
theorem inRam_of_prg {addr : Word} (h : 0x8000 ≤ addr.toNat) : inRam addr = false :=
  inRam_eq_false_of_lt (by omega)

/-- A read of the PRG window inside the image (R54). -/
theorem readByte_of_prgOffset_some {addr : Word} {j : Nat} {s : State} (h : 0x8000 ≤ addr.toNat)
    (hj : prgOffset s.rom.prg.len addr = some j) : readByte addr s = .ok (s.rom.prg.cells.read j) := by
  have hinert : ¬addr.toNat ≤ Config.inertLast := Nat.not_le_of_lt h
  simp [readByte, inRam_of_prg h, hinert, hj]

/-- A read of the PRG window past the image (R52, R242). -/
theorem readByte_of_prgOffset_none {addr : Word} {s : State} (h : 0x8000 ≤ addr.toNat)
    (hj : prgOffset s.rom.prg.len addr = none) : readByte addr s = .fault .prgOutOfRange addr := by
  have hinert : ¬addr.toNat ≤ Config.inertLast := Nat.not_le_of_lt h
  simp [readByte, inRam_of_prg h, hinert, hj]

/-- A 16 KiB image has a byte for every address of the window: its bank is mirrored (R54). -/
theorem prgOffset_bank (addr : Word) : prgOffset 0x4000 addr = some ((addr.toNat - 0x8000) % 0x4000) := by
  have hlt : (addr.toNat - 0x8000) % 0x4000 < 0x4000 := Nat.mod_lt _ (by decide)
  simp [prgOffset, Config.prgBank, Config.prgBase, hlt]

/-- Any other image is not mirrored (R54). -/
theorem prgOffset_of_ne {len : Nat} (h : len ≠ 0x4000) (addr : Word) :
    prgOffset len addr = if addr.toNat - 0x8000 < len then some (addr.toNat - 0x8000) else none := by
  simp [prgOffset, Config.prgBank, Config.prgBase, h]

/-- Settles O15: the offset of each address, by the image's length. -/
theorem prgWindowReads : Obligations.PrgWindowReads := by
  intro s addr h
  refine ⟨fun hlen => ?bank, fun hlen => ?other⟩
  case bank =>
    have hread (a : Word) (ha : 0x8000 ≤ a.toNat) :
        readByte a s = .ok (s.rom.prg.cells.read ((a.toNat - 0x8000) % 0x4000)) :=
      readByte_of_prgOffset_some ha (by rw [hlen, prgOffset_bank])
    refine ⟨hread addr h, fun hhi => ?_⟩
    have hadd : (addr + 0x4000).toNat = addr.toNat + 0x4000 := by
      have hconst : (0x4000 : Word).toNat = 0x4000 := rfl
      rw [BitVec.toNat_add, hconst]
      omega
    rw [hread (addr + 0x4000) (by omega), hread addr h, hadd, Nat.sub_add_comm h, Nat.add_mod_right]
  case other =>
    have hoff := prgOffset_of_ne hlen addr
    split at hoff
    case isTrue hin => rw [readByte_of_prgOffset_some h hoff, if_pos hin]
    case isFalse hout => rw [readByte_of_prgOffset_none h hoff, if_neg hout]

/-! ### Words -/

/-- The address of a word's second byte (R13, D10). -/
theorem add_one_eq_ofNat (addr : Word) : addr + 1 = BitVec.ofNat 16 ((addr.toNat + 1) % 65536) :=
  (BitVec.ofNat_toNat 16 (addr + 1) |>.trans (BitVec.setWidth_eq _)).symm

theorem loByte_eq_ofNat (w : Word) : loByte w = BitVec.ofNat 8 (w.toNat % 256) := by
  apply BitVec.eq_of_toNat_eq
  simp [toNat_loByte]

theorem hiByte_eq_ofNat (w : Word) : hiByte w = BitVec.ofNat 8 (w.toNat / 256) := by
  apply BitVec.eq_of_toNat_eq
  simp [hiByte, Nat.shiftRight_eq_div_pow]

/-- A word read whose first byte faults, or whose first byte answers and second faults; the converse of
`readWord_fault`. -/
theorem readWord_of_fault {addr a : Word} {k : Fault} {s : State}
    (h : readByte addr s = .fault k a ∨ (∃ lo, readByte addr s = .ok lo) ∧ readByte (addr + 1) s = .fault k a) :
    readWord addr s = .fault k a := by
  obtain hlo | ⟨⟨lo, hlo⟩, hhi⟩ := h
  · rw [readWord, hlo, Access.bind_fault]
  · rw [readWord, hlo, Access.bind_ok, hhi, Access.bind_fault]

/-- Whichever of two reads in sequence faults, it ran past the PRG image (R242). -/
theorem kind_of_fault_of_two_reads {first second addr : Word} {k : Fault} {s : State} {p : Prop}
    (h : readByte first s = .fault k addr ∨ p ∧ readByte second s = .fault k addr) : k = .prgOutOfRange := by
  obtain hfst | ⟨_, hsnd⟩ := h
  · exact (readByte_fault hfst).1
  · exact (readByte_fault hsnd).1

/-- Settles O16: the word read is two reads in sequence, the word store two stores. -/
theorem wordAccessesAreTwoByteAccesses : Obligations.WordAccessesAreTwoByteAccesses := by
  intro s addr second
  have hsecond : second = addr + 1 := (add_one_eq_ofNat addr).symm
  rw [hsecond]
  refine ⟨fun lo hi => readWord_of_ok, fun k a => readWord_of_fault, fun w => ?_⟩
  rw [writeWord, loByte_eq_ofNat, hiByte_eq_ofNat]

end Sys2Proof.Machine
end

section
/-! PROOFS. The host's load: a byte sequence installed where every byte has a cell is read back, so the placed word is
run and the loaded program is started (R54, R55, R275, R276). -/

namespace Sys2Proof.Machine

/-! ### The cell of an address -/

/-- The memory that holds an address is in canonical form: the PRG image, and RAM when the address lies in it. -/
def CanonicalAt (addr : Word) (s : State) : Prop := (inRam addr = true → s.ram.wf = true) ∧ s.rom.prg.wf = true

theorem canonicalAt_of_prg {addr : Word} {s : State} (h : 0x8000 ≤ addr.toNat) (hwf : s.rom.prg.wf = true) :
    CanonicalAt addr s :=
  ⟨fun hin => absurd (hin.symm.trans (inRam_of_prg h)) (by decide), hwf⟩

/-- A PRG offset lies inside the image, is the offset the helper installs at, and tells the address modulo the bank. -/
theorem prgOffset_eq_some {len j : Nat} {addr : Word} (h : prgOffset len addr = some j) :
    j < len ∧ installOffset len addr = j ∧ j % 0x4000 = (addr.toNat - 0x8000) % 0x4000 := by
  by_cases hlen : len = 0x4000
  · subst hlen
    rw [prgOffset_bank] at h
    obtain rfl := Option.some.inj h
    exact ⟨Nat.mod_lt _ (by decide), rfl, Nat.mod_mod _ _⟩
  · rw [prgOffset_of_ne hlen] at h
    obtain ⟨hlt, h⟩ := Option.ite_none_right_eq_some.mp h
    obtain rfl := Option.some.inj h
    exact ⟨hlt, Nat.mod_eq_of_lt hlt, rfl⟩

/-- A placeable address has a cell: in RAM, or at a PRG offset inside the image. -/
theorem placeable_iff {addr : Word} {s : State} :
    placeable addr s = true ↔
      inRam addr = true ∨ 0x8000 ≤ addr.toNat ∧ ∃ j, prgOffset s.rom.prg.len addr = some j := by
  rw [placeable, Bool.or_eq_true, Bool.and_eq_true, decide_eq_true_eq, Option.isSome_iff_exists, Config.prgBase]

/-- The three windows of the address space (R51). -/
theorem window_cases (addr : Word) :
    inRam addr = true ∨ 0x1FFF < addr.toNat ∧ addr.toNat ≤ 0x7FFF ∨ 0x8000 ≤ addr.toNat := by
  rw [inRam, decide_eq_true_eq, Config.ramLast]
  omega

/-! ### A byte of the PRG image -/

/-- The platform with one byte of the PRG image written by the host (R276). -/
def writePrg (j : Nat) (v : Byte) (s : State) : State :=
  { s with rom := { s.rom with prg := { s.rom.prg with cells := s.rom.prg.cells.write j v } } }

/-- In the PRG window the helper writes the image at the address's offset. -/
theorem installByte_of_prg {addr : Word} {j : Nat} {s : State} (h : 0x8000 ≤ addr.toNat)
    (hj : prgOffset s.rom.prg.len addr = some j) (v : Byte) : installByte addr v s = writePrg j v s := by
  obtain ⟨hlt, hoff, _⟩ := prgOffset_eq_some hj
  have hinert : ¬addr.toNat ≤ Config.inertLast := Nat.not_le_of_lt h
  simp [installByte, inRam_of_prg h, hinert, hoff, Image.put, hlt, writePrg]

/-- The image byte written is read back at an address of its offset. -/
theorem readByte_writePrg_self {addr : Word} {j : Nat} {s : State} (hwf : s.rom.prg.cells.wf = true)
    (h : 0x8000 ≤ addr.toNat) (hj : prgOffset s.rom.prg.len addr = some j) (v : Byte) :
    readByte addr (writePrg j v s) = .ok v := by
  have hread : (s.rom.prg.cells.write j v).read j = v := by rw [Memory.read_write hwf, if_pos rfl]
  exact (readByte_of_prgOffset_some (s := writePrg j v s) h hj).trans (congrArg Access.ok hread)

/-- An image byte written changes no read at another offset, and none outside the PRG window. -/
theorem readByte_writePrg_other {addr : Word} {j : Nat} {s : State} (hwf : s.rom.prg.cells.wf = true)
    (hj : 0x8000 ≤ addr.toNat → prgOffset s.rom.prg.len addr ≠ some j) (v : Byte) :
    readByte addr (writePrg j v s) = readByte addr s := by
  obtain hin | ⟨hlo, hhi⟩ | hprg := window_cases addr
  · rw [readByte_of_inRam hin, readByte_of_inRam hin]
    rfl
  · rw [readByte_of_inert hlo hhi, readByte_of_inert hlo hhi]
  · cases hi : prgOffset s.rom.prg.len addr with
    | none => rw [readByte_of_prgOffset_none hprg hi, readByte_of_prgOffset_none (s := writePrg j v s) hprg hi]
    | some i =>
      have hne : i ≠ j := fun h => hj hprg (h ▸ hi)
      have hread : (s.rom.prg.cells.write j v).read i = s.rom.prg.cells.read i := by
        rw [Memory.read_write hwf, if_neg hne]
      rw [readByte_of_prgOffset_some hprg hi]
      exact (readByte_of_prgOffset_some (s := writePrg j v s) hprg hi).trans (congrArg Access.ok hread)

/-! ### One byte -/

/-- In RAM the helper stores. -/
theorem installByte_of_inRam {addr : Word} (h : inRam addr = true) (v : Byte) (s : State) :
    installByte addr v s = writeByte addr v s := by
  simp [installByte, h]

theorem Image.cells_wf {i : Image} (h : i.wf = true) : i.cells.wf = true := by
  rw [Image.wf, Bool.and_eq_true] at h
  exact h.1

theorem Image.put_len (k : Nat) (v : Byte) (i : Image) : (i.put k v).len = i.len := by
  unfold Image.put
  split <;> rfl

theorem Image.wf_put {k : Nat} {v : Byte} {i : Image} (h : i.wf = true) : (i.put k v).wf = true := by
  unfold Image.put
  split
  case isTrue hlt =>
    rw [Image.wf, Bool.and_eq_true] at h ⊢
    exact ⟨Memory.wf_write h.1, Memory.below_write hlt h.2⟩
  case isFalse => exact h

theorem installByte_prg_len (addr : Word) (v : Byte) (s : State) :
    (installByte addr v s).rom.prg.len = s.rom.prg.len := by
  unfold installByte
  split
  · rw [writeByte_rom]
  · split
    · rfl
    · exact Image.put_len _ _ _

theorem installByte_prg_wf {s : State} (h : s.rom.prg.wf = true) (addr : Word) (v : Byte) :
    (installByte addr v s).rom.prg.wf = true := by
  unfold installByte
  split
  · rwa [writeByte_rom]
  · split
    · exact h
    · exact Image.wf_put h

theorem installByte_ram_wf {s : State} (h : s.ram.wf = true) (addr : Word) (v : Byte) :
    (installByte addr v s).ram.wf = true := by
  unfold installByte
  split
  · exact writeByte_ram_wf h addr v
  · split <;> exact h

theorem canonicalAt_installByte {addr : Word} {s : State} (h : CanonicalAt addr s) (other : Word) (v : Byte) :
    CanonicalAt addr (installByte other v s) :=
  ⟨fun hin => installByte_ram_wf (h.1 hin) other v, installByte_prg_wf h.2 other v⟩

/-- An installed byte is read back at its address. -/
theorem readByte_installByte_self {addr : Word} {s : State} (hcan : CanonicalAt addr s)
    (hplace : placeable addr s = true) (v : Byte) : readByte addr (installByte addr v s) = .ok v := by
  obtain ⟨hram, hprg⟩ := hcan
  obtain hin | ⟨hlo, j, hj⟩ := placeable_iff.mp hplace
  · rw [installByte_of_inRam hin, storesByte_writeByte (hram hin), if_pos ⟨hin, hin, rfl⟩]
  · rw [installByte_of_prg hlo hj, readByte_writePrg_self (Image.cells_wf hprg) hlo hj]

theorem toNat_add_ofNat (addr : Word) (n : Nat) : (addr + BitVec.ofNat 16 n).toNat = (addr.toNat + n) % 65536 := by
  rw [BitVec.toNat_add, BitVec.toNat_ofNat, Nat.add_mod_mod]

/-- A byte installed a little after an address leaves what the address reads: the two have different cells. -/
theorem readByte_installByte_after {addr : Word} {n : Nat} {s : State} (hn : 0 < n) (hn' : n < 0x0800)
    (hcan : CanonicalAt addr s) (hplace : placeable (addr + BitVec.ofNat 16 n) s = true) (v : Byte) :
    readByte addr (installByte (addr + BitVec.ofNat 16 n) v s) = readByte addr s := by
  obtain ⟨hram, hprg⟩ := hcan
  have hadd := toNat_add_ofNat addr n
  have haddr := addr.isLt
  obtain hin | ⟨hlo, j, hj⟩ := placeable_iff.mp hplace
  · rw [installByte_of_inRam hin]
    rcases Bool.eq_false_or_eq_true (inRam addr) with ha | ha
    · have hne : ramIndex (addr + BitVec.ofNat 16 n) ≠ ramIndex addr := by
        rw [ramIndex_eq_mod, ramIndex_eq_mod, hadd]
        omega
      rw [storesByte_writeByte (hram ha), if_neg fun hcell => hne hcell.2.2]
    · exact readByte_congr_of_not_inRam ha (writeByte_rom _ v s)
  · rw [installByte_of_prg hlo hj]
    refine readByte_writePrg_other (Image.cells_wf hprg) (fun haddrLo hi => ?_) v
    obtain ⟨_, _, hmodi⟩ := prgOffset_eq_some hi
    obtain ⟨_, _, hmodj⟩ := prgOffset_eq_some hj
    rw [hadd] at hmodj hlo
    omega

/-! ### A byte sequence -/

theorem allPlaceable_congr {s t : State} (h : t.rom.prg.len = s.rom.prg.len) (bytes : List Byte) (addr : Word) :
    allPlaceable addr bytes t = allPlaceable addr bytes s := by
  induction bytes generalizing addr with
  | nil => rfl
  | cons v rest ih => rw [allPlaceable, allPlaceable, ih, placeable, placeable, h]

theorem add_one_add_ofNat (addr : Word) (n : Nat) :
    addr + 1 + BitVec.ofNat 16 n = addr + BitVec.ofNat 16 (n + 1) := by
  rw [Nat.add_comm n, BitVec.ofNat_add, BitVec.add_assoc]
  rfl

/-- A sequence installed a little after an address leaves what the address reads. -/
theorem readByte_installBytes_after {addr : Word} {bytes : List Byte} {n : Nat} {s : State} (hn : 0 < n)
    (hlen : n + bytes.length ≤ 0x0800) (hcan : CanonicalAt addr s)
    (hplace : allPlaceable (addr + BitVec.ofNat 16 n) bytes s = true) :
    readByte addr (installBytes (addr + BitVec.ofNat 16 n) bytes s) = readByte addr s := by
  induction bytes generalizing n s with
  | nil => rfl
  | cons v rest ih =>
    rw [List.length_cons] at hlen
    have hnext : addr + BitVec.ofNat 16 n + 1 = addr + BitVec.ofNat 16 (n + 1) := by
      rw [BitVec.ofNat_add, ← BitVec.add_assoc]
      rfl
    rw [allPlaceable, Bool.and_eq_true, hnext] at hplace
    obtain ⟨hhead, htail⟩ := hplace
    rw [installBytes, hnext, ih (Nat.succ_pos n) (by omega) (canonicalAt_installByte hcan _ v)
      (by rwa [allPlaceable_congr (installByte_prg_len _ v s)])]
    exact readByte_installByte_after hn (by omega) hcan hhead v

/-- A sequence installed where every byte has a cell is read back, byte by byte. -/
theorem readByte_installBytes {bytes : List Byte} {addr : Word} {s : State} (hlen : bytes.length ≤ 0x0800)
    (hcan : ∀ k < bytes.length, CanonicalAt (addr + BitVec.ofNat 16 k) s) (hplace : allPlaceable addr bytes s = true)
    (k : Nat) (hk : k < bytes.length) :
    readByte (addr + BitVec.ofNat 16 k) (installBytes addr bytes s) = .ok bytes[k] := by
  induction bytes generalizing addr s k with
  | nil => cases hk
  | cons v rest ih =>
    rw [List.length_cons] at hlen
    rw [allPlaceable, Bool.and_eq_true] at hplace
    obtain ⟨hhead, htail⟩ := hplace
    rw [← allPlaceable_congr (installByte_prg_len addr v s)] at htail
    rw [installBytes]
    cases k with
    | zero =>
      have hcan0 : CanonicalAt addr s := by simpa using hcan 0 (Nat.succ_pos _)
      have hrest : readByte addr (installBytes (addr + 1) rest (installByte addr v s)) = _ :=
        readByte_installBytes_after (n := 1) Nat.one_pos (by omega) (canonicalAt_installByte hcan0 addr v) htail
      rw [BitVec.add_zero, List.getElem_cons_zero, hrest]
      exact readByte_installByte_self hcan0 hhead v
    | succ k =>
      rw [← add_one_add_ofNat, List.getElem_cons_succ]
      refine ih (by omega) (fun j hj => ?_) htail k (Nat.lt_of_succ_lt_succ hk)
      rw [add_one_add_ofNat]
      exact canonicalAt_installByte (hcan (j + 1) (Nat.succ_lt_succ hj)) addr v

theorem installBytes_prg {bytes : List Byte} {addr : Word} {s : State} (hwf : s.rom.prg.wf = true) :
    (installBytes addr bytes s).rom.prg.len = s.rom.prg.len ∧ (installBytes addr bytes s).rom.prg.wf = true := by
  induction bytes generalizing addr s with
  | nil => exact ⟨rfl, hwf⟩
  | cons v rest ih =>
    obtain ⟨hlen, hwf'⟩ := ih (addr := addr + 1) (installByte_prg_wf hwf addr v)
    exact ⟨hlen.trans (installByte_prg_len addr v s), hwf'⟩

/-! ### The placed word and the loaded program -/

/-- The place chosen for a word can hold it: PC, or the bottom of RAM. -/
theorem allPlaceable_placeAddr (nbits w : Nat) (s : State) :
    allPlaceable (placeAddr (tableBytes nbits w) s) (tableBytes nbits w) s = true := by
  unfold placeAddr
  split
  case isTrue h => exact h
  case isFalse => rfl

/-- What makes the core ready to run changes no read. -/
theorem readByte_setReady (s : State) (pc addr : Word) :
    readByte addr { s with pc := pc, halted := false, fault := none } = readByte addr s :=
  readByte_congr rfl rfl addr

theorem withFetchWord_pc (s : State) (nbits w : Nat) :
    (s.withFetchWord nbits w).pc = placeAddr (tableBytes nbits w) s := rfl

theorem readByte_withFetchWord (addr : Word) (s : State) (nbits w : Nat) :
    readByte addr (s.withFetchWord nbits w) =
      readByte addr (installBytes (placeAddr (tableBytes nbits w) s) (tableBytes nbits w) s) :=
  readByte_setReady _ _ addr

/-- A table word that decodes begins with the encoding of its instruction. -/
theorem tableBytes_of_decodeTableWord {nbits w : Nat} {i : Instr} (h : decodeTableWord nbits w = some i) :
    ∃ rest, tableBytes nbits w = encode i ++ rest := by
  unfold decodeTableWord at h
  split at h
  case h_1 j rest hok =>
    cases h
    exact ⟨rest, encodeInvertsDecode _ _ _ hok⟩
  case h_2 => cases h

/-- Settles O9: the bytes placed at PC are read back there, and they begin with the encoding of the instruction. -/
theorem placedWordRunsNext : Obligations.PlacedWordRunsNext := by
  intro s nbits w i ⟨hram, _⟩ hprg hdecode
  obtain ⟨rest, hbytes⟩ := tableBytes_of_decodeTableWord hdecode
  have hrun : Running (s.withFetchWord nbits w) := ⟨rfl, rfl⟩
  refine ⟨_, stepRunsDecodedInstruction _ i hrun fun k hk => ?_, rfl⟩
  have hk' : k < (tableBytes nbits w).length := by
    rw [hbytes, List.length_append]
    omega
  have hread := readByte_installBytes (s := s) (by simp [tableBytes]) (fun _ _ => ⟨fun _ => hram, hprg⟩)
    (allPlaceable_placeAddr nbits w s) k hk'
  rw [List.getElem_of_eq hbytes, List.getElem_append_left hk] at hread
  rw [withFetchWord_pc, readByte_withFetchWord, hread]

/-- Settles O59: the vector is put last, into a 16 KiB image that has both of its bytes, and reset reads it back. -/
theorem loadedProgramStartsAtItsAddress : Obligations.LoadedProgramStartsAtItsAddress := by
  intro s loadAddr program hlen hwf
  obtain ⟨hlen', hwf'⟩ := installBytes_prg (bytes := program) (addr := loadAddr) hwf
  have hplace : allPlaceable Config.resetVector [loByte loadAddr, hiByte loadAddr]
      (installBytes loadAddr program s) = true := by
    simp only [allPlaceable, placeable, hlen', hlen, prgOffset_bank]
    rfl
  have hread := readByte_installBytes (by simp) (fun k hk => canonicalAt_of_prg ?inPrg hwf') hplace
  case inPrg =>
    have hk' : k < 2 := hk
    rw [toNat_add_ofNat]
    change 0x8000 ≤ (0xFFFC + k) % 65536
    omega
  have hvector := readWord_of_ok (hread 0 (by simp)) (hread 1 (by simp))
  rw [List.getElem_cons_zero, List.getElem_cons_succ, List.getElem_cons_zero, mkWord_hiByte_loByte] at hvector
  exact congrArg State.pc (resetEvent_of_ok hvector)

end Sys2Proof.Machine
end

section
/-! PROOFS. Reset and launch: a faulting vector read, the launch values, and the platform without a cartridge (R45, R75,
R76, R270, R272 to R274, R277). -/

namespace Sys2Proof.Machine

/-! ### A faulting reset -/

/-- A reset whose vector read faults records the fault, or leaves the record already there (R272, R273). -/
theorem resetEvent_of_fault {k : Fault} {addr : Word} {s : State} (h : readWord Config.resetVector s = .fault k addr) :
    resetEvent s = if s.fault.isSome then s else raiseAt Config.resetVector k addr s := by
  rw [resetEvent, h]

/-- Reset keeps a record already there (R240, R273). -/
theorem resetEvent_fault_of_isSome {s : State} (h : s.fault.isSome = true) : (resetEvent s).fault = s.fault := by
  cases hread : readWord Config.resetVector s with
  | ok v => rw [resetEvent_of_ok hread]
  | fault k addr => rw [resetEvent_of_fault hread, if_pos h]

/-- Settles O56: the two reads of the vector are one word read, which faults as the first of them that does. -/
theorem faultingResetRecordsOnly : Obligations.FaultingResetRecordsOnly := by
  intro s k addr
  refine ⟨fun h => ?_, fun h => resetEvent_fault_of_isSome (Option.isSome_iff_ne_none.mpr h)⟩
  have hvector : readWord Config.resetVector s = .fault k addr := readWord_of_fault h
  rw [resetEvent_of_fault hvector]
  refine ⟨fun hnone => ?_, fun hsome => if_pos (Option.isSome_iff_ne_none.mpr hsome)⟩
  obtain rfl := kind_of_fault_of_two_reads h
  rw [hnone, Option.isSome_none, if_neg Bool.false_ne_true]
  rfl

/-! ### Launch -/

/-- Settles O57: every register reset does not write is still that of power-on. -/
theorem launchHasTheResetValues : Obligations.LaunchHasTheResetValues := fun _ _ _ h =>
  resetEvent_of_ok h

/-- The vector of a 16 KiB image of zero bytes is 0 (R54, R64). -/
theorem readWord_resetVector_of_zero_bank {s : State} (hlen : s.rom.prg.len = 0x4000) (hcells : s.rom.prg.cells = []) :
    readWord Config.resetVector s = .ok 0x0000 := by
  have hread (addr : Word) (h : 0x8000 ≤ addr.toNat) : readByte addr s = .ok 0x00 := by
    rw [readByte_of_prgOffset_some h (by rw [hlen, prgOffset_bank]), hcells]
    rfl
  exact readWord_of_ok (hread Config.resetVector (by decide)) (hread (Config.resetVector + 1) (by decide))

/-- Settles O58: the vector of the zero image reads 0, and the other launch values are those of State.reset. -/
theorem resetStateIsALaunch : Obligations.ResetStateIsALaunch := by
  refine ⟨fun u hir => ?_, by decide⟩
  refine (launchHasTheResetValues _ u 0x0000 (readWord_resetVector_of_zero_bank rfl rfl)).trans ?_
  rw [hir]
  rfl

/-! ### No cartridge -/

/-- The format version is bits 3:2 of header byte 7 (R70). -/
theorem toNat_formatVersion (b : Byte) : ((b >>> 2) &&& 0x03).toNat = b.toNat / 4 % 4 := by
  rw [BitVec.toNat_and, BitVec.toNat_ushiftRight, Nat.shiftRight_eq_div_pow]
  exact Nat.and_two_pow_sub_one_eq_mod _ 2

theorem eq_cons_of_getElem?_three {l : List Byte} {b : Byte} (h : l[3]? = some b) :
    ∃ x y z tail, l = x :: y :: z :: b :: tail := by
  match l, h with
  | x :: y :: z :: _ :: tail, h =>
    obtain rfl := Option.some.inj h
    exact ⟨x, y, z, tail, rfl⟩

/-- Another magic, or another format version, gives no ROM, however long the buffer is (R70, R75). -/
theorem parseCartridge_eq_noRom {buffer : List Byte}
    (h : buffer.take 4 ≠ cartridgeMagic ∨ ∃ b : Byte, buffer[7]? = some b ∧ b.toNat / 4 % 4 ≠ 0) :
    parseCartridge buffer = .noRom := by
  by_cases hmagic : buffer.take 4 ≠ cartridgeMagic
  · rw [parseCartridge, if_pos hmagic]
  · obtain ⟨b, hb, hversion⟩ := h.resolve_left hmagic
    rw [← List.getElem?_drop (i := 4) (j := 3)] at hb
    obtain ⟨x, y, z, tail, hdrop⟩ := eq_cons_of_getElem?_three hb
    have hne : (b >>> 2) &&& 0x03 ≠ 0 := fun hzero => hversion (by rw [← toNat_formatVersion, hzero]; rfl)
    rw [parseCartridge, if_neg hmagic, hdrop]
    exact if_pos hne

/-- On a platform without PRG bytes the vector read faults at its first byte (R54, R242). -/
theorem readWord_resetVector_of_rom_empty {s : State} (h : s.rom = Rom.empty) :
    readWord Config.resetVector s = .fault .prgOutOfRange Config.resetVector := by
  refine readWord_of_fault (.inl (readByte_of_prgOffset_none (by decide) ?_))
  rw [h]
  rfl

/-- Settles O60: the buffer gives no ROM, and the empty record has no byte at the vector. -/
theorem badCartridgeFaultsAtReset : Obligations.BadCartridgeFaultsAtReset := by
  intro buffer l u h
  refine ⟨by rw [platformRom, parseCartridge_eq_noRom h], fun hrom => ?_⟩
  have hvector : readWord Config.resetVector (powerOn l u) = .fault .prgOutOfRange Config.resetVector :=
    readWord_resetVector_of_rom_empty hrom
  exact resetEvent_of_fault hvector

end Sys2Proof.Machine
end

section
/-! PROOFS. The laws of the adder: the signed reading of ADC, SBC as ADC of the complement, SBC as the inverse of ADC,
and D without effect on either (R120 to R123). -/

namespace Sys2Proof.Machine

/-! ### SBC is ADC of the complement -/

theorem toNat_not_byte (m : Byte) : (~~~m).toNat = 255 - m.toNat :=
  BitVec.toNat_not

/-- The difference is the sum with the complement, less the 256 the complement adds (R122). -/
theorem sbcDiff_eq_adcSum_not (a m p : Byte) : sbcDiff a m p = (adcSum a (~~~m) p : Int) - 256 := by
  have hm : m.toNat < 256 := m.isLt
  rw [sbcDiff, adcSum, toNat_not_byte]
  omega

theorem sbcResult_eq_adcResult_not (a m p : Byte) : sbcResult a m p = adcResult a (~~~m) p := by
  have hm : m.toNat < 256 := m.isLt
  have hsbc := toNat_sbcResult a m p
  have hadc := toNat_adcResult a (~~~m) p
  rw [toNat_not_byte] at hadc
  apply BitVec.eq_of_toNat_eq
  omega

theorem sbcFlags_eq_adcFlags_not (a m p : Byte) : sbcFlags a m p = adcFlags a (~~~m) p := by
  have hcarry : sbcDiff a m p ≥ 0 ↔ adcSum a (~~~m) p > 0xFF := by
    rw [sbcDiff_eq_adcSum_not]
    omega
  have hxor : ~~~(a ^^^ ~~~m) = a ^^^ m := by rw [BitVec.not_xor_right, BitVec.not_not]
  simp only [sbcFlags, adcFlags, sbcResult_eq_adcResult_not, hcarry, hxor]

/-- Settles O22: the two result bytes and the two status bytes agree. -/
theorem sbcIsAdcOfTheComplement : Obligations.SbcIsAdcOfTheComplement := fun s m => by
  rw [sbc, adc, sbcResult_eq_adcResult_not, sbcFlags_eq_adcFlags_not]

/-! ### The signed reading -/

theorem signed_eq_ite (b : Byte) : signed b = if 128 ≤ b.toNat then (b.toNat : Int) - 256 else b.toNat := by
  rw [signed, getLsbD_seven_eq_decide_le]
  split <;> simp [*]

theorem signed_not (m : Byte) : signed (~~~m) = -1 - signed m := by
  have hm : m.toNat < 256 := m.isLt
  rw [signed_eq_ite, signed_eq_ite, toNat_not_byte]
  split <;> split <;> omega

theorem getFlag_c_adcFlags (a m p : Byte) : getFlag .c (adcFlags a m p) = decide (adcSum a m p > 0xFF) := by
  simp [adcFlags, getFlag_setZN, getFlag_putFlag]

theorem and_signBit_bne_zero (b : Byte) : (b &&& 0x80 != 0) = b.getLsbD 7 := by
  have hbit : (0x80 : Byte) = BitVec.twoPow 8 7 := rfl
  rw [hbit, BitVec.and_twoPow]
  cases b.getLsbD 7 <;> rfl

/-- V is set when A and the operand have the same sign and the result has the other (R120). -/
theorem getFlag_v_adcFlags (a m p : Byte) :
    getFlag .v (adcFlags a m p) =
      (a.getLsbD 7 == m.getLsbD 7 && a.getLsbD 7 != (adcResult a m p).getLsbD 7) := by
  rw [adcFlags, getFlag_setZN_other (by decide) (by decide), getFlag_putFlag_self, and_signBit_bne_zero,
    BitVec.getLsbD_and, BitVec.getLsbD_not, BitVec.getLsbD_xor, BitVec.getLsbD_xor]
  cases a.getLsbD 7 <;> cases m.getLsbD 7 <;> cases (adcResult a m p).getLsbD 7 <;> rfl

/-- V reads the sum as signed: it is set when the signed sum leaves -128 to 127 (R122). -/
theorem getFlag_v_adcFlags_iff (a m p : Byte) :
    getFlag .v (adcFlags a m p) = true ↔
      signed a + signed m + (getFlag .c p).toNat < -128 ∨ 127 < signed a + signed m + (getFlag .c p).toNat := by
  have ha : a.toNat < 256 := a.isLt
  have hm : m.toNat < 256 := m.isLt
  have hr := toNat_adcResult a m p
  have hc : (getFlag .c p).toNat ≤ 1 := carryNat_le p
  rw [getFlag_v_adcFlags, getLsbD_seven_eq_decide_le, getLsbD_seven_eq_decide_le, getLsbD_seven_eq_decide_le,
    signed_eq_ite, signed_eq_ite]
  simp only [Bool.and_eq_true, beq_iff_eq, bne_iff_ne, ne_eq, decide_eq_decide]
  split <;> split <;> omega

/-- The result is the signed sum modulo 256 (R122). -/
theorem toNat_adcResult_eq_signed (a m p : Byte) :
    ((adcResult a m p).toNat : Int) = (signed a + signed m + (getFlag .c p).toNat) % 256 := by
  rw [toNat_adcResult, signed_eq_ite, signed_eq_ite]
  split <;> split <;> omega

/-- Settles O21: the readings of ADC, and those of SBC as ADC of the complement. -/
theorem adderReadsSignedAndUnsigned : Obligations.AdderReadsSignedAndUnsigned := by
  intro s m c sum diff
  have hc : c ≤ 1 := carryNat_le s.p
  have hm : m.toNat < 256 := m.isLt
  have hcarry (m : Byte) : getFlag .c (adc m s).p = true ↔ 256 ≤ s.a.toNat + m.toNat + c := by
    rw [adc_p, getFlag_c_adcFlags, decide_eq_true_eq]
    exact Iff.rfl
  have hdiff : diff = signed s.a + signed (~~~m) + c := by
    rw [signed_not]
    omega
  rw [sbcIsAdcOfTheComplement s m, hdiff]
  refine ⟨hcarry m, getFlag_v_adcFlags_iff s.a m s.p, toNat_adcResult_eq_signed s.a m s.p, ?_,
    getFlag_v_adcFlags_iff s.a (~~~m) s.p, toNat_adcResult_eq_signed s.a (~~~m) s.p⟩
  rw [hcarry, toNat_not_byte]
  omega

/-! ### SBC undoes ADC -/

/-- Subtracting the operand just added gives A back exactly when the borrow in is the carry that was added (R122). -/
theorem sbcResult_adcResult_eq_iff (a m p q : Byte) :
    sbcResult (adcResult a m p) m q = a ↔ getFlag .c q = !getFlag .c p := by
  have ha : a.toNat < 256 := a.isLt
  have hp : (getFlag .c p).toNat ≤ 1 := carryNat_le p
  have hq : (getFlag .c q).toNat ≤ 1 := carryNat_le q
  have hadc := toNat_adcResult a m p
  have hsbc := toNat_sbcResult (adcResult a m p) m q
  have hborrow : (getFlag .c q = !getFlag .c p) ↔ (getFlag .c q).toNat = 1 - (getFlag .c p).toNat := by
    cases getFlag .c q <;> cases getFlag .c p <;> decide
  rw [hborrow, ← BitVec.toNat_inj]
  omega

/-- Settles O23: both clauses are one law, for the carry set by hand and for the carry ADC left. -/
theorem sbcUndoesAdc : Obligations.SbcUndoesAdc := by
  intro s m
  refine ⟨(sbcResult_adcResult_eq_iff s.a m s.p _).mpr ?_, sbcResult_adcResult_eq_iff s.a m s.p _⟩
  exact getFlag_putFlag_self .c (!getFlag .c s.p) (adc m s).p

/-! ### D -/

theorem putFlag_comm {f g : Flag} (h : f ≠ g) (v w : Bool) (p : Byte) :
    putFlag f v (putFlag g w p) = putFlag g w (putFlag f v p) := by
  apply status_ext
  intro e
  simp only [getFlag_putFlag]
  split
  case isTrue hf => rw [if_neg (hf ▸ h)]
  case isFalse => rfl

theorem carryNat_putFlag_d (d : Bool) (p : Byte) : carryNat (putFlag .d d p) = carryNat p := by
  rw [carryNat, carryNat, getFlag_putFlag_other (by decide)]

/-- A write of D passes through an addition: ADC reads and writes other flags (R123). -/
theorem adc_setFlag_d (m : Byte) (d : Bool) (s : State) : adc m (setFlag .d d s) = setFlag .d d (adc m s) := by
  have hsum : adcSum s.a m (putFlag .d d s.p) = adcSum s.a m s.p := by rw [adcSum, adcSum, carryNat_putFlag_d]
  have hresult : adcResult s.a m (putFlag .d d s.p) = adcResult s.a m s.p := by rw [adcResult, adcResult, hsum]
  have hflags : adcFlags s.a m (putFlag .d d s.p) = putFlag .d d (adcFlags s.a m s.p) := by
    simp only [adcFlags, setZN, hsum, hresult]
    rw [putFlag_comm (f := .c) (g := .d) (by decide), putFlag_comm (f := .v) (g := .d) (by decide),
      putFlag_comm (f := .z) (g := .d) (by decide), putFlag_comm (f := .n) (g := .d) (by decide)]
  simp only [adc, setFlag, hresult, hflags]

theorem sbc_setFlag_d (m : Byte) (d : Bool) (s : State) : sbc m (setFlag .d d s) = setFlag .d d (sbc m s) := by
  rw [sbcIsAdcOfTheComplement, sbcIsAdcOfTheComplement, adc_setFlag_d]

/-- An operand read that passes a write of D through answers the same next state with D written. -/
theorem readOp_setFlag {o : Operand} {op : Byte → State → State} {f : Flag} {v : Bool} {s t : State}
    (hop : ∀ m, op m (setFlag f v s) = setFlag f v (op m s)) (h : readOp o op s = .next t) :
    readOp o op (setFlag f v s) = .next (setFlag f v t) := by
  have hoperand : operandByte o (setFlag f v s) = operandByte o s := by cases o <;> rfl
  obtain ⟨m, hm, rfl⟩ | ⟨k, addr, hk, rfl⟩ := readOp_cases h
  · rw [readOp_of_ok (hoperand.trans hm), hop]
    rfl
  · rw [readOp_of_fault (hoperand.trans hk)]
    rfl

/-- Settles O24: neither the operand read nor the adder depends on D. -/
theorem decimalFlagChangesNoArithmetic : Obligations.DecimalFlagChangesNoArithmetic := by
  intro i s t d hmn h
  obtain hadc | hsbc := hmn
  · rw [exec_of_mnemonic_adc hadc] at h ⊢
    exact readOp_setFlag (fun m => adc_setFlag_d m d s) h
  · rw [exec_of_mnemonic_sbc hsbc] at h ⊢
    exact readOp_setFlag (fun m => sbc_setFlag_d m d s) h

end Sys2Proof.Machine
end

section
/-! PROOFS. JSR and the return from it: the overlap check in numbers, the two pushes as every read sees them, and the
pull of the word pushed (R42, R202, R203, R243). -/

namespace Sys2Proof.Machine

/-! ### The overlap check -/

/-- The cells of JSR's push targets in numbers: RAM addresses equal to one of the two modulo 0x0800 (R55, R202). -/
theorem jsrAliases_iff (addr : Word) (s : State) :
    jsrAliases addr s = true ↔
      addr.toNat ≤ 0x1FFF ∧
        (addr.toNat % 0x0800 = 0x0100 + s.sp.toNat ∨ addr.toNat % 0x0800 = 0x0100 + (s.sp.toNat + 255) % 256) := by
  rw [jsrAliases, Bool.and_eq_true, inRam, decide_eq_true_eq, List.contains_iff_mem, jsrPushTargets,
    ramIndex_stackAddr, ramIndex_stackAddr, toNat_sub_one_byte, ramIndex_eq_mod, List.mem_pair, Config.ramLast]

theorem jsrOverlap_of_aliases_fst {s : State} (h : jsrAliases s.pc s = true) : jsrOverlap s = some s.pc :=
  if_pos h

theorem jsrOverlap_of_not_aliases_fst {s : State} (h : ¬jsrAliases s.pc s = true) :
    jsrOverlap s = if jsrAliases (s.pc + 1) s then some (s.pc + 1) else none :=
  if_neg h

/-- There is no overlap exactly when neither operand address is one of their cells (R202). -/
theorem jsrOverlap_eq_none_iff (s : State) :
    jsrOverlap s = none ↔ ¬jsrAliases s.pc s = true ∧ ¬jsrAliases (s.pc + 1) s = true := by
  by_cases h : jsrAliases s.pc s = true
  · simp [jsrOverlap_of_aliases_fst h, h]
  · simp [jsrOverlap_of_not_aliases_fst h, h]

theorem execJsr_of_overlap {s : State} {hit : Word} (h : jsrOverlap s = some hit) (target : Word) :
    execJsr target s = .next (raise .stackOverlapsOperand hit s) := by
  rw [execJsr, h]

theorem execJsr_of_no_overlap {s : State} (h : jsrOverlap s = none) (target : Word) :
    execJsr target s = .next { jsrPush s with pc := target } := by
  rw [execJsr, h]

/-- Settles O39: the hits are the cells the pushes write, and the check names the first of the two operand addresses that is one. -/
theorem jsrOverlapFaults : Obligations.JsrOverlapFaults := by
  intro s target hits
  have halias (addr : Word) : jsrAliases addr s = true ↔ hits addr := jsrAliases_iff addr s
  refine ⟨fun hit h => execJsr_of_overlap ?_ target, fun hfst hsnd => ?_⟩
  · obtain ⟨hfst, rfl⟩ | ⟨hfst, hsnd, rfl⟩ := h
    · exact jsrOverlap_of_aliases_fst ((halias s.pc).mpr hfst)
    · rw [jsrOverlap_of_not_aliases_fst (mt (halias s.pc).mp hfst), if_pos ((halias (s.pc + 1)).mpr hsnd)]
  · exact (jsrOverlap_eq_none_iff s).mpr ⟨mt (halias s.pc).mp hfst, mt (halias (s.pc + 1)).mp hsnd⟩

/-! ### The pushes -/

/-- A push of a word changes SP and RAM only (R42). -/
theorem pushWord_frame (w : Word) (s : State) :
    pushWord w s = { s with sp := (pushWord w s).sp, ram := (pushWord w s).ram } := by
  simp [pushWord, push, writeByte, inRam_stackAddr]

/-- Every read after a push of a word: its low byte at the lower of the two stack addresses, its high byte at the upper,
the old answer elsewhere (R42). -/
theorem readByte_pushWord {s : State} (hwf : s.ram.wf = true) (w addr : Word) :
    readByte addr (pushWord w s) =
      if SameCell (stackAddr (s.sp - 1)) addr then .ok (loByte w)
      else if SameCell (stackAddr s.sp) addr then .ok (hiByte w)
      else readByte addr s := by
  rw [pushWord, storesByte_push (push_ram_wf hwf _), push_sp, storesByte_push hwf]

/-- Settles O38: without an overlap JSR is the push of PC + 1 and the jump. -/
theorem jsrPushesAndJumps : Obligations.JsrPushesAndJumps := by
  intro s target ⟨hwf, _⟩ hno
  refine ⟨{ jsrPush s with pc := target }, execJsr_of_no_overlap hno target, ?frame, ?sp, fun addr => ?bytes⟩
  case frame =>
    rw [jsrPush, pushWord_frame]
  case sp =>
    rw [jsrPush_sp, toNat_sub_one_byte, toNat_sub_one_byte, Nat.mod_add_mod, Nat.add_assoc]
    omega
  case bytes =>
    have hlast : (s.pc + 1).toNat = (s.pc.toNat + 1) % 65536 := BitVec.toNat_add s.pc 1
    rw [← toNat_sub_one_byte, ← stackAddr_eq_ofNat, ← stackAddr_eq_ofNat, ← hlast, ← loByte_eq_ofNat,
      ← hiByte_eq_ofNat]
    exact (readByte_congr rfl rfl addr).trans (readByte_pushWord hwf (s.pc + 1) addr)

/-- An address that no push writes reads as before the pushes (R202). -/
theorem readByte_pushWord_of_not_aliases {s : State} (hwf : s.ram.wf = true) {addr : Word}
    (h : ¬jsrAliases addr s = true) (w : Word) : readByte addr (pushWord w s) = readByte addr s := by
  have hcell : ∀ sp ∈ [s.sp, s.sp - 1], ¬SameCell (stackAddr sp) addr := by
    rintro sp hsp ⟨_, hin, hindex⟩
    refine h ?_
    rw [jsrAliases, hin, ← hindex, Bool.true_and, List.contains_iff_mem]
    exact List.mem_map_of_mem (f := fun sp => ramIndex (stackAddr sp)) hsp
  rw [readByte_pushWord hwf, if_neg (hcell (s.sp - 1) (by simp)), if_neg (hcell s.sp (by simp))]

/-- Settles O40: neither operand byte is in a cell the pushes write. -/
theorem jsrTargetSurvivesThePushes : Obligations.JsrTargetSurvivesThePushes := by
  intro s ⟨hwf, _⟩ hno
  obtain ⟨hfst, hsnd⟩ := (jsrOverlap_eq_none_iff s).mp hno
  rw [readWord, readWord, readByte_pushWord_of_not_aliases hwf hfst, readByte_pushWord_of_not_aliases hwf hsnd]

/-! ### The return -/

/-- RAM after a push: its byte at the stack address, the old byte at every other index (R40). -/
theorem ramByte_push {s : State} (hwf : s.ram.wf = true) (v : Byte) (other : Word) :
    ramByte other (push v s) = if ramIndex other = ramIndex (stackAddr s.sp) then v else ramByte other s := by
  rw [ramByte_congr (push_ram v s), ramByte_writeByte hwf (inRam_stackAddr s.sp)]

/-- The second of two pulls reads the first of two pushed bytes: SP and SP - 1 are two cells (R42, R43). -/
theorem pullByte_pullSp_push {s : State} (hwf : s.ram.wf = true) (hi lo : Byte) :
    pullByte (pullSp (push lo (push hi s))) = hi := by
  have hsp : (pullSp (push lo (push hi s))).sp + 1 = s.sp := by
    rw [pullSp_sp, push_sp, push_sp, BitVec.sub_add_cancel, BitVec.sub_add_cancel]
  have hne : ramIndex (stackAddr s.sp) ≠ ramIndex (stackAddr (s.sp - 1)) := by
    have hlt : s.sp.toNat < 256 := s.sp.isLt
    rw [ramIndex_stackAddr, ramIndex_stackAddr, toNat_sub_one_byte]
    omega
  rw [pullByte, hsp, ramByte_congr (pullSp_ram _), ramByte_push (push_ram_wf hwf hi), push_sp, if_neg hne,
    ramByte_push hwf, if_pos rfl]

/-- A pull of a word reads the word the last push of one stored (R42). -/
theorem pullWordValue_pushWord {s : State} (hwf : s.ram.wf = true) (w : Word) : pullWordValue (pushWord w s) = w := by
  rw [pullWordValue, pushWord, pullByte_push (push_ram_wf hwf _), pullByte_pullSp_push hwf, mkWord_hiByte_loByte]

/-- The word a pull reads does not depend on PC. -/
theorem pullWordValue_setPc (pc : Word) (s : State) : pullWordValue { s with pc := pc } = pullWordValue s := rfl

/-- RTS goes to the pulled word plus 1 (R203). -/
theorem rts_answers (s : State) :
    ∃ t, exec .rts s = .next t ∧ t.pc = pullWordValue s + 1 ∧ t.sp = s.sp + 1 + 1 :=
  ⟨_, rfl, rfl, rfl⟩

/-- Settles O43: RTS pulls the word JSR pushed, wherever PC stands, and SP comes back by 2. -/
theorem rtsUndoesJsr : Obligations.RtsUndoesJsr := by
  intro s t target ⟨hwf, _⟩ hno h pc
  obtain rfl := Host.Outcome.next.inj ((execJsr_of_no_overlap hno target).symm.trans h)
  obtain ⟨u, hu, hpc, hsp⟩ := rts_answers { jsrPush s with pc := pc }
  have hpull : pullWordValue { jsrPush s with pc := pc } = s.pc + 1 := by
    rw [pullWordValue_setPc, jsrPush, pullWordValue_pushWord hwf]
  have hback : (jsrPush s).sp + 1 + 1 = s.sp := by
    rw [jsrPush_sp, BitVec.sub_add_cancel, BitVec.sub_add_cancel]
  refine ⟨u, hu, ?_, hsp.trans hback⟩
  rw [hpc, hpull, BitVec.add_assoc]
  rfl

end Sys2Proof.Machine
end

section
/-! PROOFS. What exec can come to, said once: a fault, or one effect of the instruction's family and a new PC (R20, R26,
R91, R93, R109, R240). -/

namespace Sys2Proof.Machine

/-! ### The effects -/

/-- What the instruction does beside moving PC, by family, when no access faults. -/
inductive Effect (s : State) (i : Instr) : State → Prop where
  | none : Effect s i s
  | adc (m : Byte) (h : i.mnemonic ∈ [.adc]) : Effect s i (adc m s)
  | sbc (m : Byte) (h : i.mnemonic ∈ [.sbc]) : Effect s i (sbc m s)
  | compare (reg m : Byte) (h : i.mnemonic ∈ [.cmp, .cpx, .cpy]) : Effect s i (compareReg reg m s)
  | bit (m : Byte) (h : i.mnemonic ∈ [.bit]) : Effect s i (bitTest m s)
  | setA (v : Byte) (h : i.mnemonic ∈ [.and, .ora, .eor, .lda, .txa, .tya]) : Effect s i (setA v s)
  | setX (v : Byte) (h : i.mnemonic ∈ [.ldx, .tax, .tsx, .inx, .dex]) : Effect s i (setX v s)
  | setY (v : Byte) (h : i.mnemonic ∈ [.ldy, .tay, .iny, .dey]) : Effect s i (setY v s)
  | shiftA (r : Byte) (c : Bool) (h : i.mnemonic ∈ [.asl, .lsr, .rol, .ror]) (hi : i ∈ [.aslA, .lsrA, .rolA, .rorA]) :
      Effect s i { s with a := r, p := setZN r (putFlag .c c s.p) }
  | shift (addr : Word) (r : Byte) (c : Bool) (h : i.mnemonic ∈ [.asl, .lsr, .rol, .ror]) :
      Effect s i (writeByte addr r { s with p := setZN r (putFlag .c c s.p) })
  | incDec (addr : Word) (r : Byte) (h : i.mnemonic ∈ [.inc, .dec]) :
      Effect s i (writeByte addr r { s with p := setZN r s.p })
  | store (addr : Word) (v : Byte) (h : i.mnemonic ∈ [.sta, .stx, .sty]) : Effect s i (writeByte addr v s)
  | txs (h : i.mnemonic ∈ [.txs]) : Effect s i { s with sp := s.x }
  | push (v : Byte) (h : i.mnemonic ∈ [.pha, .php]) : Effect s i (push v s)
  | pla (h : i.mnemonic ∈ [.pla]) : Effect s i (setA (pullByte s) (pullSp s))
  | plp (h : i.mnemonic ∈ [.plp]) : Effect s i (pullStatus s)
  | jsr (h : i.mnemonic ∈ [.jsr]) : Effect s i (jsrPush s)
  | rts (h : i.mnemonic ∈ [.rts]) : Effect s i (pullWordSp s)
  | rti (h : i.mnemonic ∈ [.rti]) : Effect s i (pullWordSp (pullStatus s))
  | flag (f : Flag) (v : Bool)
      (h : (i.mnemonic, f) ∈
        [(.clc, .c), (.sec, .c), (.cli, .i), (.sei, .i), (.cld, .d), (.sed, .d), (.clv, .v)]) :
      Effect s i (setFlag f v s)
  | brk (h : i.mnemonic ∈ [.brk]) : Effect s i { s with p := putFlag .b true s.p, halted := true }

/-- What an instruction answers: a fault taken, or its effect with PC written. -/
def ExecAnswer (s : State) (i : Instr) (t : State) : Prop :=
  (∃ k addr, t = raise k addr s) ∨ ∃ u pc, Effect s i u ∧ t = { u with pc := pc }

section

variable {s u : State} {i : Instr}

theorem ExecAnswer.fault (k : Fault) (addr : Word) : ExecAnswer s i (raise k addr s) :=
  .inl ⟨k, addr, rfl⟩

theorem ExecAnswer.moved (pc : Word) (h : Effect s i u) : ExecAnswer s i { u with pc := pc } :=
  .inr ⟨u, pc, h, rfl⟩

theorem ExecAnswer.advance (o : Operand) (h : Effect s i u) : ExecAnswer s i (advance o u) :=
  .inr ⟨u, _, h, rfl⟩

/-! ### The shapes always answer -/

/-- An instruction that only has its effect and gets the advance. -/
theorem effect_answers {o : Operand} (hexec : exec i s = .next (advance o u)) (h : Effect s i u) :
    ∃ t, exec i s = .next t ∧ ExecAnswer s i t :=
  ⟨_, hexec, .advance o h⟩

/-- A use of an address answers a next state when the mode has an address (R97). -/
theorem withEA_answers {k : Word → Out} (hexec : exec i s = withEA i.operand s k) (ho : (ea i.operand s).isSome = true)
    (hk : ∀ addr, ∃ t, k addr = .next t ∧ ExecAnswer s i t) : ∃ t, exec i s = .next t ∧ ExecAnswer s i t := by
  obtain ⟨r, hr⟩ := Option.isSome_iff_exists.mp ho
  rw [hexec]
  cases r with
  | ok addr =>
    rw [withEA_of_ok hr]
    exact hk addr
  | fault f addr => exact ⟨_, withEA_of_fault hr k, .fault f addr⟩

theorem readOp_answers {f : Byte → State → State} (hexec : exec i s = readOp i.operand f s)
    (ho : (operandByte i.operand s).isSome = true) (hf : ∀ m, Effect s i (f m s)) :
    ∃ t, exec i s = .next t ∧ ExecAnswer s i t := by
  obtain ⟨r, hr⟩ := Option.isSome_iff_exists.mp ho
  rw [hexec]
  cases r with
  | ok m => exact ⟨_, readOp_of_ok hr f, .advance _ (hf m)⟩
  | fault k addr => exact ⟨_, readOp_of_fault hr f, .fault k addr⟩

theorem storeOp_effect_answers {v : Byte} (hexec : exec i s = storeOp i.operand v s)
    (ho : (ea i.operand s).isSome = true) (hv : ∀ addr, Effect s i (writeByte addr v s)) :
    ∃ t, exec i s = .next t ∧ ExecAnswer s i t :=
  withEA_answers hexec ho fun addr => ⟨_, rfl, .advance _ (hv addr)⟩

theorem rmwOp_effect_answers {f : Byte → Byte → Byte × Byte} (hexec : exec i s = rmwOp i.operand f s)
    (ho : (ea i.operand s).isSome = true)
    (hf : ∀ addr v, Effect s i (writeByte addr (f v s.p).1 { s with p := (f v s.p).2 })) :
    ∃ t, exec i s = .next t ∧ ExecAnswer s i t := by
  refine withEA_answers hexec ho fun addr => ?_
  cases readByte addr s with
  | ok v => exact ⟨_, rfl, .advance _ (hf addr v)⟩
  | fault k a => exact ⟨_, rfl, .fault k a⟩

theorem branch_effect_answers {cond : Bool} {off : Byte} (hexec : exec i s = branch cond off s) :
    ∃ t, exec i s = .next t ∧ ExecAnswer s i t := by
  cases cond with
  | true => exact ⟨_, hexec, .moved _ .none⟩
  | false => exact ⟨_, hexec, .advance _ .none⟩

end

/-- Every instruction answers a next state in every state: a fault, or its effect. -/
theorem exec_answers (i : Instr) (s : State) : ∃ t, exec i s = .next t ∧ ExecAnswer s i t := by
  cases i with
  | adcImm | adcZp | adcZpX | adcAbs | adcAbsX | adcAbsY | adcIndX | adcIndY =>
    exact readOp_answers rfl rfl fun m => .adc m (List.mem_of_elem_eq_true rfl)
  | sbcImm | sbcZp | sbcZpX | sbcAbs | sbcAbsX | sbcAbsY | sbcIndX | sbcIndY =>
    exact readOp_answers rfl rfl fun m => .sbc m (List.mem_of_elem_eq_true rfl)
  | cmpImm | cmpZp | cmpZpX | cmpAbs | cmpAbsX | cmpAbsY | cmpIndX | cmpIndY | cpxImm | cpxZp | cpxAbs
  | cpyImm | cpyZp | cpyAbs =>
    exact readOp_answers rfl rfl fun m => .compare _ m (List.mem_of_elem_eq_true rfl)
  | bitZp | bitAbs =>
    exact readOp_answers rfl rfl fun m => .bit m (List.mem_of_elem_eq_true rfl)
  | andImm | andZp | andZpX | andAbs | andAbsX | andAbsY | andIndX | andIndY
  | oraImm | oraZp | oraZpX | oraAbs | oraAbsX | oraAbsY | oraIndX | oraIndY
  | eorImm | eorZp | eorZpX | eorAbs | eorAbsX | eorAbsY | eorIndX | eorIndY
  | ldaImm | ldaZp | ldaZpX | ldaAbs | ldaAbsX | ldaAbsY | ldaIndX | ldaIndY =>
    exact readOp_answers rfl rfl fun m => .setA _ (List.mem_of_elem_eq_true rfl)
  | ldxImm | ldxZp | ldxZpY | ldxAbs | ldxAbsY =>
    exact readOp_answers rfl rfl fun m => .setX m (List.mem_of_elem_eq_true rfl)
  | ldyImm | ldyZp | ldyZpX | ldyAbs | ldyAbsX =>
    exact readOp_answers rfl rfl fun m => .setY m (List.mem_of_elem_eq_true rfl)
  | aslZp | aslZpX | aslAbs | aslAbsX | lsrZp | lsrZpX | lsrAbs | lsrAbsX
  | rolZp | rolZpX | rolAbs | rolAbsX | rorZp | rorZpX | rorAbs | rorAbsX =>
    exact rmwOp_effect_answers rfl rfl fun addr _ => .shift addr _ _ (List.mem_of_elem_eq_true rfl)
  | incZp | incZpX | incAbs | incAbsX | decZp | decZpX | decAbs | decAbsX =>
    exact rmwOp_effect_answers rfl rfl fun addr _ => .incDec addr _ (List.mem_of_elem_eq_true rfl)
  | staZp | staZpX | staAbs | staAbsX | staAbsY | staIndX | staIndY | stxZp | stxZpY | stxAbs | styZp | styZpX
  | styAbs => exact storeOp_effect_answers rfl rfl fun addr => .store addr _ (List.mem_of_elem_eq_true rfl)
  | aslA | lsrA | rolA | rorA =>
    exact effect_answers rfl (.shiftA _ _ (List.mem_of_elem_eq_true rfl) (List.mem_of_elem_eq_true rfl))
  | txa | tya => exact effect_answers rfl (.setA _ (List.mem_of_elem_eq_true rfl))
  | tax | tsx | inx | dex => exact effect_answers rfl (.setX _ (List.mem_of_elem_eq_true rfl))
  | tay | iny | dey => exact effect_answers rfl (.setY _ (List.mem_of_elem_eq_true rfl))
  | txs => exact effect_answers rfl (.txs (List.mem_of_elem_eq_true rfl))
  | pha | php => exact effect_answers rfl (.push _ (List.mem_of_elem_eq_true rfl))
  | pla => exact effect_answers rfl (.pla (List.mem_of_elem_eq_true rfl))
  | plp => exact effect_answers rfl (.plp (List.mem_of_elem_eq_true rfl))
  | jmpAbs | jmpInd => exact withEA_answers rfl rfl fun target => ⟨_, rfl, .moved target .none⟩
  | jsr target =>
    cases hoverlap : jsrOverlap s with
    | some hit => exact ⟨_, execJsr_of_overlap hoverlap target, .fault _ hit⟩
    | none => exact ⟨_, execJsr_of_no_overlap hoverlap target, .moved _ (.jsr (List.mem_of_elem_eq_true rfl))⟩
  | rts => exact ⟨_, rfl, .moved _ (.rts (List.mem_of_elem_eq_true rfl))⟩
  | rti => exact ⟨_, rfl, .moved _ (.rti (List.mem_of_elem_eq_true rfl))⟩
  | bcc | bcs | beq | bne | bmi | bpl | bvc | bvs => exact branch_effect_answers rfl
  | clc | sec | cli | sei | cld | sed | clv =>
    exact effect_answers rfl (.flag _ _ (List.mem_of_elem_eq_true rfl))
  | nop => exact effect_answers rfl .none
  | brk => exact effect_answers rfl (.brk (List.mem_of_elem_eq_true rfl))

theorem execAnswer_of_next {i : Instr} {s t : State} (h : exec i s = .next t) : ExecAnswer s i t := by
  obtain ⟨u, hu, hanswer⟩ := exec_answers i s
  obtain rfl := Host.Outcome.next.inj (hu.symm.trans h)
  exact hanswer

/-- Settles O12: NoneAddressing has no address, and every instruction answers a next state. -/
theorem noInstructionAsksForANoneAddress : Obligations.NoInstructionAsksForANoneAddress := by
  refine ⟨fun _ _ => rfl, fun i s r hrefused => ?_⟩
  obtain ⟨t, hnext, _⟩ := exec_answers i s
  cases hnext.symm.trans hrefused

/-- Settles O49: a fetch stops in a state or gives an instruction, and every instruction answers. -/
theorem everyStepAnswersANextState : Obligations.EveryStepAnswersANextState := by
  refine fun s => ⟨?_, step_of_not_running⟩
  by_cases hrun : Running s
  · cases hfetch : fetch s with
    | instr i t =>
      obtain ⟨u, hu, _⟩ := exec_answers i t
      exact ⟨u, (step_of_fetch_instr hrun hfetch).trans hu⟩
    | stopped t => exact ⟨t, step_of_fetch_stopped hrun hfetch⟩
  · exact ⟨s, step_of_not_running hrun⟩

end Sys2Proof.Machine
end

section
/-! PROOFS. Who writes what: the registers, RAM and flags each family's effect can change (R20, R24, R26, R30, R54). -/

namespace Sys2Proof.Machine

/-! ### The writers -/

/-- The mnemonics that write A in every form; a shift or rotate does so in its accumulator form only (R20). -/
def aWriters : List Mnemonic := [.adc, .sbc, .and, .ora, .eor, .lda, .pla, .txa, .tya]

/-- The mnemonics that write X (R20). -/
def xWriters : List Mnemonic := [.ldx, .tax, .tsx, .inx, .dex]

/-- The mnemonics that write Y (R20). -/
def yWriters : List Mnemonic := [.ldy, .tay, .iny, .dey]

/-- The mnemonics that write SP (R24). -/
def spWriters : List Mnemonic := [.txs, .pha, .php, .pla, .plp, .jsr, .rts, .rti]

/-- The mnemonics that store (R54, R55). -/
def ramWriters : List Mnemonic := [.sta, .stx, .sty, .asl, .lsr, .rol, .ror, .inc, .dec, .pha, .php, .jsr]

/-- The mnemonics R26's table lists for a flag, beside PLP and RTI. -/
def flagWriters : Flag → List Mnemonic
  | .c => [.adc, .sbc, .asl, .lsr, .rol, .ror, .cmp, .cpx, .cpy, .clc, .sec]
  | .z | .n =>
    [.adc, .sbc, .asl, .lsr, .rol, .ror, .cmp, .cpx, .cpy, .inc, .dec, .inx, .iny, .dex, .dey, .and, .ora, .eor,
      .bit, .lda, .ldx, .ldy, .tax, .tay, .txa, .tya, .tsx, .pla]
  | .i => [.cli, .sei]
  | .d => [.cld, .sed]
  | .b => [.brk]
  | .u => []
  | .v => [.adc, .sbc, .bit, .clv]

/-! ### Registers and RAM -/

section

variable {s u : State} {i : Instr}

theorem Effect.a_eq (h : Effect s i u) (ha : i.mnemonic ∉ aWriters) (hacc : i ∉ [Instr.aslA, .lsrA, .rolA, .rorA]) :
    u.a = s.a := by
  cases h with
  | adc _ h | sbc _ h | setA _ h | pla h => exact absurd ((by decide : ∀ m ∈ _, m ∈ aWriters) _ h) ha
  | shiftA _ _ _ hi => exact absurd hi hacc
  | _ => simp

theorem Effect.x_eq (h : Effect s i u) (hx : i.mnemonic ∉ xWriters) : u.x = s.x := by
  cases h with
  | setX _ h => exact absurd h hx
  | _ => simp

theorem Effect.y_eq (h : Effect s i u) (hy : i.mnemonic ∉ yWriters) : u.y = s.y := by
  cases h with
  | setY _ h => exact absurd h hy
  | _ => simp

theorem Effect.sp_eq (h : Effect s i u) (hsp : i.mnemonic ∉ spWriters) : u.sp = s.sp := by
  cases h with
  | txs h | push _ h | pla h | plp h | jsr h | rts h | rti h =>
    exact absurd ((by decide : ∀ m ∈ _, m ∈ spWriters) _ h) hsp
  | _ => simp

theorem Effect.halted_eq (h : Effect s i u) (hbrk : i.mnemonic ≠ .brk) : u.halted = s.halted := by
  cases h with
  | brk h => exact absurd (List.mem_singleton.mp h) hbrk
  | _ => simp

theorem Effect.ram_eq (h : Effect s i u) (hram : i.mnemonic ∉ ramWriters) : u.ram = s.ram := by
  cases h with
  | shift _ _ _ h | incDec _ _ h | store _ _ h | push _ h | jsr h =>
    exact absurd ((by decide : ∀ m ∈ _, m ∈ ramWriters) _ h) hram
  | _ => rfl

/-- No effect writes the fault record, IR or the ROM record (R30, R54). -/
theorem Effect.frame (h : Effect s i u) : u.fault = s.fault ∧ u.ir = s.ir ∧ u.rom = s.rom := by
  cases h <;> simp

end

/-- Settles O47: a fault writes no register and no byte, and an effect only what its family writes. -/
theorem whoWritesWhichRegister : Obligations.WhoWritesWhichRegister := by
  intro i s t hnext
  obtain ⟨k, addr, rfl⟩ | ⟨u, pc, h, rfl⟩ := execAnswer_of_next hnext
  · simp
  · obtain ⟨_, hir, hrom⟩ := h.frame
    refine ⟨fun hne => ?_, fun hne => ?_, fun hne => ?_, fun hne => ?_, fun hne => ?_, fun hne => ?_, hir, hrom⟩
    · by_contra hno
      exact hne (h.a_eq (mt .inl hno) (mt .inr hno))
    · by_contra hno
      exact hne (h.x_eq hno)
    · by_contra hno
      exact hne (h.y_eq hno)
    · by_contra hno
      exact hne (h.sp_eq hno)
    · by_contra hno
      exact hne (h.halted_eq hno)
    · by_contra hno
      exact hne (h.ram_eq hno)

/-! ### Flags -/

section

variable {s u : State} {i : Instr}

/-- An effect that keeps every flag but some, all of them its mnemonic's to write. -/
theorem mem_flagWriters_of_keepsFlags {written : List Flag} {mns : List Mnemonic} (hkeep : KeepsFlags written s u)
    (hw : ∀ m ∈ mns, ∀ f ∈ written, m ∈ flagWriters f) (hmn : i.mnemonic ∈ mns) (f : Flag)
    (hne : getFlag f u.p ≠ getFlag f s.p) : i.mnemonic ∈ flagWriters f :=
  hw _ hmn f (by_contra fun hf => hne (hkeep f hf))

/-- ADC and SBC keep every flag but C, V, Z and N (R120, R121). -/
theorem keepsFlags_of_p_eq_setZN_overflow {r : Byte} {v c : Bool}
    (h : u.p = setZN r (putFlag .v v (putFlag .c c s.p))) : KeepsFlags [.c, .v, .z, .n] s u := by
  intro f hf
  simp only [List.mem_cons, List.not_mem_nil, or_false, not_or] at hf
  obtain ⟨hc, hv, hz, hn⟩ := hf
  rw [h, getFlag_setZN_other hz hn, getFlag_putFlag_other hv, getFlag_putFlag_other hc]

/-- An effect restores P from a pulled byte, in PLP and RTI, or changes flags of its mnemonic only (R26). -/
theorem Effect.flags (h : Effect s i u) :
    (i.mnemonic ∈ [.plp, .rti] ∧ ∃ v, u.p = restoredStatus v) ∨
      ∀ f, getFlag f u.p ≠ getFlag f s.p → i.mnemonic ∈ flagWriters f := by
  cases h with
  | plp h | rti h => exact .inl ⟨(by decide : ∀ m ∈ _, m ∈ _) _ h, _, rfl⟩
  | adc _ h | sbc _ h =>
    exact .inr (mem_flagWriters_of_keepsFlags (keepsFlags_of_p_eq_setZN_overflow rfl) (by decide) h)
  | compare _ _ h | shiftA _ _ h =>
    exact .inr (mem_flagWriters_of_keepsFlags (flags_of_p_eq_setZN_carry rfl).2.2 (by decide) h)
  | shift _ _ _ h =>
    exact .inr (mem_flagWriters_of_keepsFlags (flags_of_p_eq_setZN_carry (writeByte_p ..)).2.2 (by decide) h)
  | incDec _ _ h =>
    exact .inr (mem_flagWriters_of_keepsFlags (keepsFlags_of_p_eq_setZN (writeByte_p ..)) (by decide) h)
  | bit _ h => exact .inr (mem_flagWriters_of_keepsFlags (keepsFlags_of_p_eq_bitFlags rfl) (by decide) h)
  | setA _ h | setX _ h | setY _ h | pla h =>
    exact .inr (mem_flagWriters_of_keepsFlags (keepsFlags_of_p_eq_setZN rfl) (by decide) h)
  | flag f v h =>
    have hmem : i.mnemonic ∈ flagWriters f :=
      (by decide : ∀ x ∈ (_ : List (Mnemonic × Flag)), x.1 ∈ flagWriters x.2) _ h
    refine .inr (mem_flagWriters_of_keepsFlags (keepsFlags_of_p_eq_putFlag (f := f) (v := v) rfl) ?_
      (List.mem_singleton_self i.mnemonic))
    simpa using hmem
  | brk h =>
    have hkeep : KeepsFlags [.b] s { s with p := putFlag .b true s.p, halted := true } :=
      keepsFlags_of_p_eq_putFlag (v := true) rfl
    exact .inr (mem_flagWriters_of_keepsFlags hkeep (by decide) h)
  | _ => exact .inr fun f hne => absurd (by simp) hne

end

/-- Settles O48: a fault keeps P, and an effect writes flags of its mnemonic only, but for PLP and RTI. -/
theorem whoWritesWhichFlag : Obligations.WhoWritesWhichFlag := by
  intro i s t f hnext hne
  obtain ⟨k, addr, rfl⟩ | ⟨u, pc, h, rfl⟩ := execAnswer_of_next hnext
  · exact absurd rfl hne
  · obtain ⟨hmn, _⟩ | hflags := h.flags
    · exact .inl hmn
    · have hmem := hflags f hne
      refine .inr ?_
      cases f with
      | b => exact List.mem_singleton.mp hmem
      | u => cases hmem
      | _ => exact hmem

end Sys2Proof.Machine
end

section
/-! PROOFS. The step: what one step of a running core can come to, said once, and from it the faults, the halt, the ROM
and the invariant (R27, R54, R57, R215, R240 to R246, R278, R284). -/

namespace Sys2Proof.Machine

/-! ### What a step can come to -/

/-- An operand read that faults leaves a fault taken, in JSR without an overlap after the pushes (R202, R240). -/
theorem operandFault_cases (m : Mnemonic) (k : Fault) (addr : Word) (s : State) :
    (∃ k' addr', operandFault m k addr s = raise k' addr' s) ∨
      m = .jsr ∧ operandFault m k addr s = raise k addr (jsrPush s) := by
  unfold operandFault
  split
  case isTrue hm =>
    split
    case h_1 hit _ => exact .inl ⟨_, hit, rfl⟩
    case h_2 => exact .inr ⟨hm, rfl⟩
  case isFalse => exact .inl ⟨k, addr, rfl⟩

/-- A step of a running core faults before the opcode is read, faults after it, faults in JSR after the pushes, or has
the effect of the instruction read. -/
inductive StepAnswer (s t : State) : Prop where
  | opcodeFault (k : Fault) (addr : Word) (ht : t = raiseAt s.pc k addr s)
  | fault (op : Byte) (k : Fault) (addr : Word) (hop : readByte s.pc s = .ok op)
      (ht : t = raise k addr (executePhase op s))
  | jsrFault (k : Fault) (addr : Word) (hop : readByte s.pc s = .ok 0x20)
      (ht : t = raise k addr (jsrPush (executePhase 0x20 s)))
  | effect (i : Instr) (u : State) (pc : Word) (hop : readByte s.pc s = .ok i.opcode)
      (hexec : exec i (executePhase i.opcode s) = .next t) (h : Effect (executePhase i.opcode s) i u)
      (ht : t = { u with pc := pc })

theorem stepAnswer_of_next {s t : State} (hrun : Running s) (h : step s = .next t) : StepAnswer s t := by
  obtain ⟨hnot, _⟩ | ⟨_, i, u, hfetch, hexec⟩ | ⟨_, hfetch⟩ := step_cases h
  · exact absurd hrun hnot
  · obtain ⟨hop, rfl, _⟩ := bytes_of_fetch hfetch
    obtain ⟨k, addr, ht⟩ | ⟨u, pc, heffect, ht⟩ := execAnswer_of_next hexec
    · exact .fault i.opcode k addr hop ht
    · exact .effect i u pc hop hexec heffect ht
  · obtain ⟨k, addr, _, ht⟩ | ⟨op, hop, _, ht⟩ | ⟨op, row, k, addr, hop, hd, _, ht⟩ := fetch_stopped hfetch
    · exact .opcodeFault k addr ht
    · exact .fault op _ _ hop ht
    · obtain ⟨k', addr', hfault⟩ | ⟨hjsr, hfault⟩ := operandFault_cases row.mnemonic k addr (executePhase op s)
      · exact .fault op k' addr' hop (ht.trans hfault)
      · obtain rfl := (mnemonic_eq_jsr_iff hd).mp hjsr
        exact .jsrFault k addr hop (ht.trans hfault)

/-- An effect that halts a running core is BRK's (R215). -/
theorem Effect.eq_brk_of_halted {s u : State} {i : Instr} (h : Effect s i u) (hs : s.halted = false)
    (hu : u.halted = true) : i.mnemonic = .brk ∧ u = { s with p := putFlag .b true s.p, halted := true } := by
  cases h with
  | brk h => exact ⟨List.mem_singleton.mp h, rfl⟩
  | _ => simp [hs] at hu

/-! ### Faults -/

/-- Settles O50: an effect records no fault, and each way to take one names the opcode's address. -/
theorem faultsArePrecise : Obligations.FaultsArePrecise := by
  intro s t r hrun hstep hr
  have ⟨hhalt, hnone⟩ := hrun
  cases stepAnswer_of_next hrun hstep with
  | opcodeFault k addr ht =>
    subst ht
    cases hr
    exact ⟨rfl, rfl, hhalt, rfl, rfl, rfl, rfl, rfl, .inl ⟨rfl, rfl⟩, fun _ => ⟨rfl, rfl⟩⟩
  | fault op k addr hop ht =>
    rw [raise_executePhase] at ht
    subst ht
    cases hr
    exact ⟨rfl, rfl, hhalt, rfl, rfl, rfl, rfl, rfl, .inr ⟨rfl, hop⟩, fun _ => ⟨rfl, rfl⟩⟩
  | jsrFault k addr hop ht =>
    rw [jsrPush_executePhase, raise_executePhase] at ht
    subst ht
    cases hr
    simp [hop, hhalt]
  | effect i u pc hop _ h ht =>
    subst ht
    have hfault : u.fault = none := h.frame.1.trans hnone
    cases hfault.symm.trans hr

/-! ### The halt -/

theorem eq_brk_of_mnemonic {i : Instr} (h : i.mnemonic = .brk) : i = .brk := by
  cases i with
  | brk => rfl
  | _ => cases h

/-- Settles O51: a fault leaves the core running or halted as it was, and the effect that halts is BRK's. -/
theorem onlyBrkHalts : Obligations.OnlyBrkHalts := by
  intro s t hrun hstep ht
  have ⟨hhalt, hnone⟩ := hrun
  cases stepAnswer_of_next hrun hstep with
  | opcodeFault | fault | jsrFault =>
    subst t
    simp [hhalt] at ht
  | effect i u pc hop hexec h hu =>
    subst hu
    obtain ⟨hmn, _⟩ := h.eq_brk_of_halted hhalt ht
    obtain rfl := eq_brk_of_mnemonic hmn
    obtain ⟨_, _, t, hnext, hframe, hb, hkeep, _⟩ := brkSetsBAndHalts (executePhase 0x00 s)
    obtain rfl := Host.Outcome.next.inj (hnext.symm.trans hexec)
    refine ⟨hop, ⟨ht, ?_⟩, ?_, hb, hkeep⟩
    · rw [hframe]
      exact hnone
    · rw [hframe]
      rfl

/-- Settles O52: the inert windows read 0x00, the encoding of BRK. -/
theorem fetchOutsideMemoryHalts : Obligations.FetchOutsideMemoryHalts := by
  intro s hrun hlo hhi
  have hstep : step s = exec .brk (executePhase 0x00 s) := by
    refine stepRunsDecodedInstruction s .brk hrun fun k hk => ?_
    obtain rfl : k = 0 := Nat.lt_one_iff.mp hk
    rw [BitVec.add_zero]
    exact readByte_of_inert hlo hhi s
  obtain ⟨_, _, t, hnext, hframe, hb, hkeep, _⟩ := brkSetsBAndHalts (executePhase 0x00 s)
  refine ⟨t, hstep.trans hnext, hframe, hb, hkeep, ?_⟩
  rw [hframe]
  exact ⟨rfl, hrun.2⟩

/-! ### ROM and the invariant -/

theorem step_rom {s t : State} (h : step s = .next t) : t.rom = s.rom := by
  by_cases hrun : Running s
  · cases stepAnswer_of_next hrun h with
    | opcodeFault | fault | jsrFault =>
      subst t
      simp
    | effect i u pc _ _ heffect ht =>
      subst ht
      exact heffect.frame.2.2
  · obtain rfl := Host.Outcome.next.inj ((step_of_not_running hrun).symm.trans h)
    rfl

/-- Settles O53: outside RAM a read depends on the ROM record only, and no step writes that. -/
theorem noStepChangesRom : Obligations.NoStepChangesRom := fun _ _ h =>
  ⟨step_rom h, fun _ haddr => readByte_congr_of_not_inRam haddr (step_rom h)⟩

theorem writeByte_ramWf {s : State} (h : RamWf s) (addr : Word) (v : Byte) : RamWf (writeByte addr v s) :=
  ⟨writeByte_ram_wf h.1 addr v, writeByte_ram_below h.2 addr v⟩

theorem jsrPush_ramWf {s : State} (h : RamWf s) : RamWf (jsrPush s) :=
  ⟨pushWord_ram_wf h.1 _, pushWord_ram_below h.2 _⟩

/-- Every effect keeps RAM in canonical form: what it writes it stores or pushes (R55). -/
theorem Effect.ramWf {s u : State} {i : Instr} (h : Effect s i u) (hs : RamWf s) : RamWf u := by
  cases h with
  | shift addr r c => exact writeByte_ramWf (s := { s with p := setZN r (putFlag .c c s.p) }) hs addr r
  | incDec addr r => exact writeByte_ramWf (s := { s with p := setZN r s.p }) hs addr r
  | store addr v => exact writeByte_ramWf hs addr v
  | push v => exact ⟨push_ram_wf hs.1 v, push_ram_below hs.2 v⟩
  | jsr => exact jsrPush_ramWf hs
  | _ => exact hs

/-- U stays set: only a restored P writes it, and that sets it (R27, R189). -/
theorem Effect.u_flag {s u : State} {i : Instr} (h : Effect s i u) (hs : getFlag .u s.p = true) :
    getFlag .u u.p = true := by
  obtain ⟨_, v, hv⟩ | hflags := h.flags
  · rw [hv, getFlag_restoredStatus_eq_ite]
    rfl
  · by_contra hne
    cases hflags .u fun heq => hne (heq.trans hs)

/-- Settles O54: a fault writes no byte but JSR's pushes and leaves the core running, and an effect keeps each part. -/
theorem stepKeepsInvariant : Obligations.StepKeepsInvariant := by
  intro s t hinv hstep
  by_cases hrun : Running s
  · obtain ⟨hram, hprg, hchr, hu, _⟩ := hinv
    have ⟨hhalt, hnone⟩ := hrun
    have hrom := step_rom hstep
    rw [← hrom] at hprg hchr
    cases stepAnswer_of_next hrun hstep with
    | opcodeFault _ _ ht | fault _ _ _ _ ht =>
      subst ht
      exact ⟨hram, hprg, hchr, hu, fun hh => absurd (hhalt.symm.trans hh) (by decide)⟩
    | jsrFault k addr _ ht =>
      subst ht
      refine ⟨jsrPush_ramWf (s := executePhase 0x20 s) hram, hprg, hchr, ?_, fun hh => ?_⟩
      · simpa using hu
      · simp [hhalt] at hh
    | effect i u pc _ _ h ht =>
      subst ht
      refine ⟨h.ramWf (s := executePhase i.opcode s) hram, hprg, hchr, h.u_flag hu, fun hh => ?_⟩
      obtain ⟨hmn, rfl⟩ := h.eq_brk_of_halted hhalt hh
      obtain rfl := eq_brk_of_mnemonic hmn
      exact ⟨hnone, rfl, getFlag_putFlag_self .b true s.p⟩
  · obtain rfl := Host.Outcome.next.inj ((step_of_not_running hrun).symm.trans hstep)
    exact hinv

end Sys2Proof.Machine
end

section
/-! PROOFS. The data and pointer reads that fault: the instructions that read a memory operand, and JMP indirect (R98,
R104, R240, R242). -/

namespace Sys2Proof.Machine

/-! ### The operand read -/

/-- Only a pointer read of the Indirect mode makes an address fault: the other pointers lie in page 0 (R97, R102 to
R104). -/
theorem ea_eq_ok {o : Operand} {s : State} {r : Access Word} (ho : o.mode ≠ .indirect) (h : ea o s = some r) :
    ∃ addr, r = .ok addr := by
  cases o with
  | none | relative => cases h
  | indirect => exact absurd rfl ho
  | _ => exact ⟨_, (Option.some.inj h).symm⟩

/-- An operand read that faults has its address, and the fault is that of the read there (R98, R99). -/
theorem operandByte_fault {o : Operand} {s : State} {k : Fault} {addr : Word} (ho : o.mode ≠ .indirect)
    (h : operandByte o s = some (.fault k addr)) :
    k = .prgOutOfRange ∧ ea o s = some (.ok addr) ∧ readByte addr s = .fault k addr := by
  have hmap : (ea o s).map (fun r => r.bind fun addr => readByte addr s) = some (.fault k addr) := by
    cases o with
    | immediate => cases h
    | _ => exact h
  obtain ⟨r, hr, hread⟩ := Option.map_eq_some_iff.mp hmap
  obtain ⟨a, rfl⟩ := ea_eq_ok ho hr
  rw [Access.bind_ok] at hread
  obtain ⟨rfl, rfl⟩ := readByte_fault hread
  exact ⟨rfl, hr, hread⟩

/-! ### The instructions that read their operand -/

/-- Every instruction is a row of the opcode map: its mnemonic is defined in its mode (R108). -/
theorem mode_mem_modes (i : Instr) : i.mode ∈ i.mnemonic.modes := by
  cases i <;> exact List.mem_of_elem_eq_true rfl

/-- The mnemonics that read a memory operand. -/
def dataReaders : List Mnemonic :=
  [.adc, .sbc, .asl, .lsr, .rol, .ror, .cmp, .cpx, .cpy, .inc, .dec, .and, .ora, .eor, .bit, .lda, .ldx, .ldy]

theorem mode_ne_indirect_of_dataReader {i : Instr} (h : i.mnemonic ∈ dataReaders) : i.mode ≠ .indirect := by
  have hmodes : ∀ m ∈ dataReaders, .indirect ∉ m.modes := by decide
  exact fun hmode => hmodes _ h (hmode ▸ mode_mem_modes i)

/-- An instruction that reads a memory operand is an operand read or a read-modify-write of it (R98). -/
theorem exec_of_dataReader {i : Instr} {s : State} (h : i.mnemonic ∈ dataReaders)
    (hmode : i.mode ≠ .noneAddressing) :
    (∃ f, exec i s = readOp i.operand f s) ∨ ∃ f, exec i s = rmwOp i.operand f s := by
  have hfamily : ∀ m ∈ dataReaders, m = .adc ∨ m = .sbc ∨ m ∈ [Mnemonic.asl, .lsr, .rol, .ror] ∨
      m ∈ [Mnemonic.cmp, .cpx, .cpy] ∨ m ∈ [Mnemonic.inc, .dec] ∨ m ∈ [Mnemonic.and, .ora, .eor] ∨ m = .bit ∨
      m ∈ [Mnemonic.lda, .ldx, .ldy] := by decide
  obtain hmn | hmn | hmn | hmn | hmn | hmn | hmn | hmn := hfamily _ h
  · exact .inl ⟨_, exec_of_mnemonic_adc hmn s⟩
  · exact .inl ⟨_, exec_of_mnemonic_sbc hmn s⟩
  · obtain ⟨f, _, _, hmem⟩ := exec_of_mnemonic_shift hmn s
    exact .inr ⟨f, hmem hmode⟩
  · exact .inl ⟨_, exec_of_mnemonic_compare hmn s⟩
  · exact .inr ⟨_, exec_of_mnemonic_incDec hmn s⟩
  · exact .inl ⟨_, exec_of_mnemonic_logic hmn s⟩
  · exact .inl ⟨_, exec_of_mnemonic_bit hmn s⟩
  · exact .inl ⟨_, exec_of_mnemonic_load hmn s⟩

/-- An operand read that faults is all such an instruction does (R240). -/
theorem exec_of_operandByte_fault {i : Instr} {s : State} {k : Fault} {addr : Word} (h : i.mnemonic ∈ dataReaders)
    (hf : operandByte i.operand s = some (.fault k addr)) : exec i s = .next (raise k addr s) := by
  have hmode : i.mode ≠ .noneAddressing := by
    intro hnone
    cases ho : i.operand with
    | none =>
      rw [ho] at hf
      cases hf
    | _ =>
      rw [Instr.mode, ho] at hnone
      cases hnone
  obtain ⟨_, haddr, hread⟩ := operandByte_fault (mode_ne_indirect_of_dataReader h) hf
  obtain ⟨f, hexec⟩ | ⟨f, hexec⟩ := exec_of_dataReader (s := s) h hmode
  · rw [hexec, readOp_of_fault hf]
  · rw [hexec, rmwOp_of_fault haddr hread]

/-! ### JMP indirect -/

/-- JMP indirect takes the fault of the first of its two pointer reads that does (R104, R201). -/
theorem execJmpInd_of_fault {ptr addr : Word} {k : Fault} {s : State}
    (h : readByte ptr s = .fault k addr ∨
      (∃ lo, readByte ptr s = .ok lo) ∧ readByte (pointerHigh ptr) s = .fault k addr) :
    execJmpInd ptr s = .next (raise k addr s) := by
  have htarget : indirectTarget ptr s = .fault k addr := by
    obtain hlo | ⟨⟨lo, hlo⟩, hhi⟩ := h
    · rw [indirectTarget, hlo, Access.bind_fault]
    · rw [indirectTarget, hlo, Access.bind_ok, hhi, Access.bind_fault]
  exact withEA_of_fault (o := .indirect ptr) (congrArg some htarget) _

/-- Settles O33: a read faults past the PRG image only, and the instruction takes the fault where it reads. -/
theorem dataReadFaults : Obligations.DataReadFaults := by
  intro s k addr faulted
  refine ⟨fun i hmn hf => ?_, fun ptr h => ?_⟩
  · obtain ⟨rfl, haddr, _⟩ := operandByte_fault (mode_ne_indirect_of_dataReader hmn) hf
    exact ⟨haddr, exec_of_operandByte_fault hmn hf⟩
  · rw [← pointerHigh_eq_ofNat] at h
    obtain rfl := kind_of_fault_of_two_reads h
    exact execJmpInd_of_fault h

end Sys2Proof.Machine
end
